-- ==== Sys2Proof/Word.lean ====
section
/-! DEFINITION. The word types of the block: bytes, 16-bit words, the 4-bit and 12-bit instruction fields. -/

namespace Sys2Proof

/-- One byte: a general register, a memory byte, a pixel, the field NN (00_scope.md R8, R12). -/
abbrev Byte := BitVec 8

/-- A 16-bit value: an instruction word, `pc`, `I`, a return address (00_scope.md R8). -/
abbrev Word := BitVec 16

/-- A 4-bit field: X, Y, N, the class nibble, a key id (30_encoding.md R71 to R76). -/
abbrev Nibble := BitVec 4

/-- The 12-bit field NNN (30_encoding.md R75). -/
abbrev Addr12 := BitVec 12

end Sys2Proof
end

