-- ==== Sys2Proof/Config.lean ====
section
/-! DEFINITION. What is fixed for one block: the constants and parameters of 00_scope.md R8, and the free values. -/

namespace Sys2Proof.Config

/-- `MEM_SIZE`, the number of memory bytes (00_scope.md R8). -/
def memSize : Nat := 0x1000

/-- `ENTRY`, where execution and the loaded program start (00_scope.md R8). -/
def entry : Nat := 0x200

/-- The largest program `load` accepts, `MEM_SIZE - 0x200` bytes (70_reset_and_hazards.md R242). -/
def loadLimit : Nat := memSize - entry

/-- The two readings of the collision flag (93_implementation_defined.md U4, 90_conflicts.md C4). -/
inductive CollisionRule where
  /-- A pixel that goes from 0x00 to 0xFF sets VF: the spec's rule (44_display.md R166). -/
  | unsetToSet
  /-- A pixel that goes from 0xFF to 0x00 sets VF: the source's Glossary, the losing text of 90_conflicts.md C4. -/
  | setToUnset
  deriving DecidableEq, Repr

/-- The two readings of what FX0A does to `latched_key` (log entry 15). -/
inductive LatchRule where
  /-- FX0A keeps it: the pseudocode of 45_keyboard_timers.md R193. -/
  | kept
  /-- FX0A writes it, with a value no rule gives: the words of 10_state.md R29. -/
  | written
  deriving DecidableEq, Repr

/-- The parameters a block is constructed with (00_scope.md R8); 00_scope.md R9 says which are allowed. -/
structure Params where
  stackDepth : Nat
  fbW : Nat
  fbH : Nat
  outW : Nat
  outH : Nat
  font : List Byte
  filterOnAtReset : Bool
  collision : CollisionRule
  latch : LatchRule
  deriving DecidableEq, Repr

/-- Glyphs 0 to 7 of the default font (20_memory.md R53). -/
def fontLow : List Byte :=
  [0xF0#8, 0x90#8, 0x90#8, 0x90#8, 0xF0#8] ++ [0x20#8, 0x60#8, 0x20#8, 0x20#8, 0x70#8] ++
  [0xF0#8, 0x10#8, 0xF0#8, 0x80#8, 0xF0#8] ++ [0xF0#8, 0x10#8, 0xF0#8, 0x10#8, 0xF0#8] ++
  [0x90#8, 0x90#8, 0xF0#8, 0x10#8, 0x10#8] ++ [0xF0#8, 0x80#8, 0xF0#8, 0x10#8, 0xF0#8] ++
  [0xF0#8, 0x80#8, 0xF0#8, 0x90#8, 0xF0#8] ++ [0xF0#8, 0x10#8, 0x20#8, 0x40#8, 0x40#8]

/-- Glyphs 8 to F of the default font (20_memory.md R53). -/
def fontHigh : List Byte :=
  [0xF0#8, 0x90#8, 0xF0#8, 0x90#8, 0xF0#8] ++ [0xF0#8, 0x90#8, 0xF0#8, 0x10#8, 0xF0#8] ++
  [0xF0#8, 0x90#8, 0xF0#8, 0x90#8, 0x90#8] ++ [0xE0#8, 0x90#8, 0xE0#8, 0x90#8, 0xE0#8] ++
  [0xF0#8, 0x80#8, 0x80#8, 0x80#8, 0xF0#8] ++ [0xE0#8, 0x90#8, 0x90#8, 0x90#8, 0xE0#8] ++
  [0xF0#8, 0x80#8, 0xF0#8, 0x80#8, 0xF0#8] ++ [0xF0#8, 0x80#8, 0xF0#8, 0x80#8, 0x80#8]

/-- `FONT` at its default: 16 glyphs of 5 bytes, glyph d at `5*d` (20_memory.md R52, R53). -/
def defaultFont : List Byte := fontLow ++ fontHigh

/-- The parameters at the values the spec takes (00_scope.md R8). The stack depth is the table's default 64. -/
def Params.default : Params where
  stackDepth := 64
  fbW := 64
  fbH := 32
  outW := 128
  outH := 64
  font := defaultFont
  filterOnAtReset := true
  collision := .unsetToSet
  latch := .kept

/-- FREE VALUE (log entry 5): the byte CXNN draws as the `n`-th free value of a run. It has no body, so a statement holds for every
draw (42_alu.md R132, 93_implementation_defined.md U11). -/
opaque randomByte : Nat → Byte

/-- FREE VALUE (log entry 15): the key FX0A leaves in `latched_key` under `LatchRule.written`, as the `n`-th free
value of a run. It has no body, so a statement holds for every value. -/
opaque freeLatchedKey : Nat → Nibble

end Sys2Proof.Config
end

