-- ==== Sys2Proof/Syntax.lean ====
section
/-! DEFINITION. The instructions: one constructor per row of spec/opcode_table.json (30_encoding.md R79). -/

namespace Sys2Proof

/-- The 34 forms of 30_encoding.md R79, in its order; the fields each form reads are its arguments.
The two shifts keep the field Y, which they decode and ignore (42_alu.md R129, R131). -/
inductive Instr where
  /-- 00E0, display clear (44_display.md R160). -/
  | cls
  /-- 00EE, return from subroutine (41_control_flow.md R101). -/
  | ret
  /-- 1NNN, jump (41_control_flow.md R102). -/
  | jp (nnn : Addr12)
  /-- 2NNN, call (41_control_flow.md R103). -/
  | call (nnn : Addr12)
  /-- 3XNN, skip if register equals immediate (41_control_flow.md R104). -/
  | seImm (x : Nibble) (nn : Byte)
  /-- 4XNN, skip if register differs from immediate (41_control_flow.md R105). -/
  | sneImm (x : Nibble) (nn : Byte)
  /-- 5XY0, skip if registers are equal (41_control_flow.md R106). -/
  | seReg (x y : Nibble)
  /-- 9XY0, skip if registers differ (41_control_flow.md R107). -/
  | sneReg (x y : Nibble)
  /-- 6XNN, load immediate (42_alu.md R121). -/
  | ldImm (x : Nibble) (nn : Byte)
  /-- 7XNN, add immediate, no flag (42_alu.md R122). -/
  | addImm (x : Nibble) (nn : Byte)
  /-- 8XY0, assign (42_alu.md R123). -/
  | ldReg (x y : Nibble)
  /-- 8XY1, OR (42_alu.md R124). -/
  | orReg (x y : Nibble)
  /-- 8XY2, AND (42_alu.md R125). -/
  | andReg (x y : Nibble)
  /-- 8XY3, XOR (42_alu.md R126). -/
  | xorReg (x y : Nibble)
  /-- 8XY4, add with carry flag (42_alu.md R127). -/
  | addReg (x y : Nibble)
  /-- 8XY5, subtract X - Y (42_alu.md R128). -/
  | sub (x y : Nibble)
  /-- 8XY6, shift right by one (42_alu.md R129). -/
  | shr (x y : Nibble)
  /-- 8XY7, reverse subtract Y - X (42_alu.md R130). -/
  | subn (x y : Nibble)
  /-- 8XYE, shift left by one (42_alu.md R131). -/
  | shl (x y : Nibble)
  /-- ANNN, load the index register (43_index_memory.md R140). -/
  | ldI (nnn : Addr12)
  /-- BNNN, jump relative to V0 (41_control_flow.md R108). -/
  | jpV0 (nnn : Addr12)
  /-- CXNN, masked random load (42_alu.md R132). -/
  | rnd (x : Nibble) (nn : Byte)
  /-- DXYN, sprite draw (44_display.md R161). -/
  | drw (x y n : Nibble)
  /-- EX9E, skip if key pressed (45_keyboard_timers.md R190). -/
  | skp (x : Nibble)
  /-- EXA1, skip if key not pressed (45_keyboard_timers.md R191). -/
  | sknp (x : Nibble)
  /-- FX07, read the delay timer (45_keyboard_timers.md R192). -/
  | ldVxDT (x : Nibble)
  /-- FX0A, blocking key-wait (45_keyboard_timers.md R193). -/
  | ldVxK (x : Nibble)
  /-- FX15, write the delay timer (45_keyboard_timers.md R194). -/
  | ldDTVx (x : Nibble)
  /-- FX18, write the sound timer (45_keyboard_timers.md R195). -/
  | ldSTVx (x : Nibble)
  /-- FX1E, add to the index register (43_index_memory.md R141). -/
  | addI (x : Nibble)
  /-- FX29, font-glyph address (43_index_memory.md R142). -/
  | ldF (x : Nibble)
  /-- FX33, decimal-digit decomposition (43_index_memory.md R143). -/
  | ldB (x : Nibble)
  /-- FX55, store registers V0 to VX (43_index_memory.md R144). -/
  | ldMemVx (x : Nibble)
  /-- FX65, load registers V0 to VX (43_index_memory.md R145). -/
  | ldVxMem (x : Nibble)
  deriving DecidableEq, Repr

end Sys2Proof
end

