-- ==== Sys2Proof/WellFormed.lean ====
section
/-! DEFINITION. Well-formedness: of an instruction (the field types already say it) and of a block's parameters (00_scope.md R9). -/

namespace Sys2Proof

/-- An instruction is well formed when its fields fit their widths (30_encoding.md R72 to R76). Each field has
exactly that many bits as a type, and decoding has no error condition on fields (R77), so every term is well formed. -/
abbrev Instr.WellFormed (_ : Instr) : Prop := True

namespace Config

/-- The call stack has at least one entry (00_scope.md R9). -/
abbrev Params.StackOk (p : Params) : Prop := 1 ≤ p.stackDepth

/-- The frame size lies in 1 to 256 each way (00_scope.md R9). -/
abbrev Params.FrameOk (p : Params) : Prop := (1 ≤ p.fbW ∧ p.fbW ≤ 256) ∧ (1 ≤ p.fbH ∧ p.fbH ≤ 256)

/-- The output is exactly double the frame (00_scope.md R9, 44_display.md R176). -/
abbrev Params.RatioOk (p : Params) : Prop := p.outW = 2 * p.fbW ∧ p.outH = 2 * p.fbH

/-- The font has exactly 80 bytes (00_scope.md R9). -/
abbrev Params.FontOk (p : Params) : Prop := p.font.length = 80

/-- What the model checks at construction (00_scope.md R9); a block that breaks it is not constructed
(60_exceptions.md R216). -/
abbrev Params.WellFormed (p : Params) : Prop := p.StackOk ∧ p.FrameOk ∧ p.RatioOk ∧ p.FontOk

end Config

end Sys2Proof
end

