-- ==== Sys2Proof/Decode.lean ====
section
/-! DEFINITION. The decoder, total on every word and every byte list, and the encoder, both from 30_encoding.md R70 to R81. -/

namespace Sys2Proof

/-! Fields of a word; all are extracted from every word (30_encoding.md R77). -/

/-- The class nibble, `word[15:12]` (30_encoding.md R71). -/
def fieldClass (w : Word) : Nibble := w.extractLsb' 12 4

/-- The register field X, `word[11:8]` (30_encoding.md R72). -/
def fieldX (w : Word) : Nibble := w.extractLsb' 8 4

/-- The register field Y, `word[7:4]` (30_encoding.md R73). -/
def fieldY (w : Word) : Nibble := w.extractLsb' 4 4

/-- The nibble N, `word[3:0]` (30_encoding.md R76). -/
def fieldN (w : Word) : Nibble := w.extractLsb' 0 4

/-- The byte immediate NN, `word[7:0]` (30_encoding.md R74). -/
def fieldNN (w : Word) : Byte := w.extractLsb' 0 8

/-- The address immediate NNN, `word[11:0]` (30_encoding.md R75). -/
def fieldNNN (w : Word) : Addr12 := w.extractLsb' 0 12

/-- What the decoder answers for a word. -/
inductive Decoded where
  /-- A word that matches a row of 30_encoding.md R79. -/
  | instr (i : Instr)
  /-- A word that matches no row: illegal (30_encoding.md R81). -/
  | unknown (w : Word)
  deriving DecidableEq, Repr

/-- Class 0x0: the whole word selects the form (30_encoding.md R76, R80). -/
def decodeClass0 (w : Word) : Decoded :=
  if w = 0x00E0#16 then .instr .cls
  else if w = 0x00EE#16 then .instr .ret
  else .unknown w

/-- Class 0x8: the low nibble selects the form (30_encoding.md R80). -/
def decodeClass8 (w : Word) : Decoded :=
  match fieldN w with
  | 0x0#4 => .instr (.ldReg (fieldX w) (fieldY w))
  | 0x1#4 => .instr (.orReg (fieldX w) (fieldY w))
  | 0x2#4 => .instr (.andReg (fieldX w) (fieldY w))
  | 0x3#4 => .instr (.xorReg (fieldX w) (fieldY w))
  | 0x4#4 => .instr (.addReg (fieldX w) (fieldY w))
  | 0x5#4 => .instr (.sub (fieldX w) (fieldY w))
  | 0x6#4 => .instr (.shr (fieldX w) (fieldY w))
  | 0x7#4 => .instr (.subn (fieldX w) (fieldY w))
  | 0xE#4 => .instr (.shl (fieldX w) (fieldY w))
  | _ => .unknown w

/-- Class 0xE: the low byte selects the form (30_encoding.md R80). -/
def decodeClassE (w : Word) : Decoded :=
  match fieldNN w with
  | 0x9E#8 => .instr (.skp (fieldX w))
  | 0xA1#8 => .instr (.sknp (fieldX w))
  | _ => .unknown w

/-- Class 0xF: the low byte selects the form (30_encoding.md R80). -/
def decodeClassF (w : Word) : Decoded :=
  match fieldNN w with
  | 0x07#8 => .instr (.ldVxDT (fieldX w))
  | 0x0A#8 => .instr (.ldVxK (fieldX w))
  | 0x15#8 => .instr (.ldDTVx (fieldX w))
  | 0x18#8 => .instr (.ldSTVx (fieldX w))
  | 0x1E#8 => .instr (.addI (fieldX w))
  | 0x29#8 => .instr (.ldF (fieldX w))
  | 0x33#8 => .instr (.ldB (fieldX w))
  | 0x55#8 => .instr (.ldMemVx (fieldX w))
  | 0x65#8 => .instr (.ldVxMem (fieldX w))
  | _ => .unknown w

/-- The decode procedure of 30_encoding.md R80, total on every 16-bit word. -/
def decode (w : Word) : Decoded :=
  match fieldClass w with
  | 0x0#4 => decodeClass0 w
  | 0x1#4 => .instr (.jp (fieldNNN w))
  | 0x2#4 => .instr (.call (fieldNNN w))
  | 0x3#4 => .instr (.seImm (fieldX w) (fieldNN w))
  | 0x4#4 => .instr (.sneImm (fieldX w) (fieldNN w))
  | 0x5#4 => if fieldN w = 0#4 then .instr (.seReg (fieldX w) (fieldY w)) else .unknown w
  | 0x6#4 => .instr (.ldImm (fieldX w) (fieldNN w))
  | 0x7#4 => .instr (.addImm (fieldX w) (fieldNN w))
  | 0x8#4 => decodeClass8 w
  | 0x9#4 => if fieldN w = 0#4 then .instr (.sneReg (fieldX w) (fieldY w)) else .unknown w
  | 0xA#4 => .instr (.ldI (fieldNNN w))
  | 0xB#4 => .instr (.jpV0 (fieldNNN w))
  | 0xC#4 => .instr (.rnd (fieldX w) (fieldNN w))
  | 0xD#4 => .instr (.drw (fieldX w) (fieldY w) (fieldN w))
  | 0xE#4 => decodeClassE w
  | _ => decodeClassF w

/-- The word of two consecutive bytes, the first in bits 15:8 (20_memory.md R54). -/
def wordOfBytes (hi lo : Byte) : Word := hi ++ lo

/-- The two bytes of a word as memory holds them, the byte at the lower address first (20_memory.md R54). -/
def bytesOfWord (w : Word) : Byte × Byte := (w.extractLsb' 8 8, w.extractLsb' 0 8)

/-- What the decoder answers for a list of bytes. -/
inductive DecodedBytes where
  /-- An instruction and the bytes after its two (30_encoding.md R70). -/
  | instr (i : Instr) (rest : List Byte)
  /-- The first word is illegal (30_encoding.md R81). -/
  | unknown (w : Word)
  /-- Fewer than the two bytes every instruction has (30_encoding.md R70). -/
  | tooShort
  deriving DecidableEq, Repr

/-- Decoding of any bytes: one instruction is two bytes (30_encoding.md R70). -/
def decodeBytes : List Byte → DecodedBytes
  | hi :: lo :: rest =>
    match decode (wordOfBytes hi lo) with
    | .instr i => .instr i rest
    | .unknown w => .unknown w
  | _ => .tooShort

/-- The word of an instruction, from the match column of 30_encoding.md R79 and the layouts of R78. -/
def encode : Instr → Word
  | .cls => 0x00E0#16
  | .ret => 0x00EE#16
  | .jp nnn => 0x1#4 ++ nnn
  | .call nnn => 0x2#4 ++ nnn
  | .seImm x nn => 0x3#4 ++ x ++ nn
  | .sneImm x nn => 0x4#4 ++ x ++ nn
  | .seReg x y => 0x5#4 ++ x ++ y ++ 0x0#4
  | .sneReg x y => 0x9#4 ++ x ++ y ++ 0x0#4
  | .ldImm x nn => 0x6#4 ++ x ++ nn
  | .addImm x nn => 0x7#4 ++ x ++ nn
  | .ldReg x y => 0x8#4 ++ x ++ y ++ 0x0#4
  | .orReg x y => 0x8#4 ++ x ++ y ++ 0x1#4
  | .andReg x y => 0x8#4 ++ x ++ y ++ 0x2#4
  | .xorReg x y => 0x8#4 ++ x ++ y ++ 0x3#4
  | .addReg x y => 0x8#4 ++ x ++ y ++ 0x4#4
  | .sub x y => 0x8#4 ++ x ++ y ++ 0x5#4
  | .shr x y => 0x8#4 ++ x ++ y ++ 0x6#4
  | .subn x y => 0x8#4 ++ x ++ y ++ 0x7#4
  | .shl x y => 0x8#4 ++ x ++ y ++ 0xE#4
  | .ldI nnn => 0xA#4 ++ nnn
  | .jpV0 nnn => 0xB#4 ++ nnn
  | .rnd x nn => 0xC#4 ++ x ++ nn
  | .drw x y n => 0xD#4 ++ x ++ y ++ n
  | .skp x => 0xE#4 ++ x ++ 0x9E#8
  | .sknp x => 0xE#4 ++ x ++ 0xA1#8
  | .ldVxDT x => 0xF#4 ++ x ++ 0x07#8
  | .ldVxK x => 0xF#4 ++ x ++ 0x0A#8
  | .ldDTVx x => 0xF#4 ++ x ++ 0x15#8
  | .ldSTVx x => 0xF#4 ++ x ++ 0x18#8
  | .addI x => 0xF#4 ++ x ++ 0x1E#8
  | .ldF x => 0xF#4 ++ x ++ 0x29#8
  | .ldB x => 0xF#4 ++ x ++ 0x33#8
  | .ldMemVx x => 0xF#4 ++ x ++ 0x55#8
  | .ldVxMem x => 0xF#4 ++ x ++ 0x65#8

/-- The bytes of an instruction as memory holds them (20_memory.md R54). -/
def encodeBytes (i : Instr) : List Byte := [(bytesOfWord (encode i)).1, (bytesOfWord (encode i)).2]

/-- One row of the opcode map, as mask and match (30_encoding.md R79): a word matches it when
`word & mask = match`. -/
structure OpcodeRow where
  mask : Word
  matchBits : Word
  deriving DecidableEq, Repr

/-- A word matches a row (30_encoding.md R79). -/
def OpcodeRow.matchesWord (r : OpcodeRow) (w : Word) : Bool := w &&& r.mask == r.matchBits

/-- Rows 1 to 19 of 30_encoding.md R79. -/
def opcodeRowsFirst : List OpcodeRow :=
  [⟨0xFFFF#16, 0x00E0#16⟩, ⟨0xFFFF#16, 0x00EE#16⟩, ⟨0xF000#16, 0x1000#16⟩, ⟨0xF000#16, 0x2000#16⟩] ++
  [⟨0xF000#16, 0x3000#16⟩, ⟨0xF000#16, 0x4000#16⟩, ⟨0xF00F#16, 0x5000#16⟩, ⟨0xF00F#16, 0x9000#16⟩] ++
  [⟨0xF000#16, 0x6000#16⟩, ⟨0xF000#16, 0x7000#16⟩] ++
  [⟨0xF00F#16, 0x8000#16⟩, ⟨0xF00F#16, 0x8001#16⟩, ⟨0xF00F#16, 0x8002#16⟩, ⟨0xF00F#16, 0x8003#16⟩] ++
  [⟨0xF00F#16, 0x8004#16⟩, ⟨0xF00F#16, 0x8005#16⟩, ⟨0xF00F#16, 0x8006#16⟩, ⟨0xF00F#16, 0x8007#16⟩] ++
  [⟨0xF00F#16, 0x800E#16⟩]

/-- Rows 20 to 34 of 30_encoding.md R79. -/
def opcodeRowsSecond : List OpcodeRow :=
  [⟨0xF000#16, 0xA000#16⟩, ⟨0xF000#16, 0xB000#16⟩, ⟨0xF000#16, 0xC000#16⟩, ⟨0xF000#16, 0xD000#16⟩] ++
  [⟨0xF0FF#16, 0xE09E#16⟩, ⟨0xF0FF#16, 0xE0A1#16⟩, ⟨0xF0FF#16, 0xF007#16⟩, ⟨0xF0FF#16, 0xF00A#16⟩] ++
  [⟨0xF0FF#16, 0xF015#16⟩, ⟨0xF0FF#16, 0xF018#16⟩, ⟨0xF0FF#16, 0xF01E#16⟩, ⟨0xF0FF#16, 0xF029#16⟩] ++
  [⟨0xF0FF#16, 0xF033#16⟩, ⟨0xF0FF#16, 0xF055#16⟩, ⟨0xF0FF#16, 0xF065#16⟩]

/-- The opcode map of 30_encoding.md R79. -/
def opcodeRows : List OpcodeRow := opcodeRowsFirst ++ opcodeRowsSecond

/-- The index in `opcodeRows` of an instruction's row (30_encoding.md R79, its column # less one). -/
def rowIndex : Instr → Nat
  | .cls => 0
  | .ret => 1
  | .jp _ => 2
  | .call _ => 3
  | .seImm _ _ => 4
  | .sneImm _ _ => 5
  | .seReg _ _ => 6
  | .sneReg _ _ => 7
  | .ldImm _ _ => 8
  | .addImm _ _ => 9
  | .ldReg _ _ => 10
  | .orReg _ _ => 11
  | .andReg _ _ => 12
  | .xorReg _ _ => 13
  | .addReg _ _ => 14
  | .sub _ _ => 15
  | .shr _ _ => 16
  | .subn _ _ => 17
  | .shl _ _ => 18
  | .ldI _ => 19
  | .jpV0 _ => 20
  | .rnd _ _ => 21
  | .drw _ _ _ => 22
  | .skp _ => 23
  | .sknp _ => 24
  | .ldVxDT _ => 25
  | .ldVxK _ => 26
  | .ldDTVx _ => 27
  | .ldSTVx _ => 28
  | .addI _ => 29
  | .ldF _ => 30
  | .ldB _ => 31
  | .ldMemVx _ => 32
  | .ldVxMem _ => 33

/-- The instruction the decoder reads from the bits `w` of a table row of `nbits` bits: bits above `nbits` are 0,
the word is laid out in memory order and decoded from its bytes. -/
def decodeTableWord (nbits w : Nat) : Option Instr :=
  let b := bytesOfWord (BitVec.ofNat 16 (w % 2 ^ nbits))
  match decodeBytes [b.1, b.2] with
  | .instr i _ => some i
  | .unknown _ => none
  | .tooShort => none

end Sys2Proof
end

