-- ==== Sys2Proof/Machine/State.lean ====
section
/-! DEFINITION. The state of the block as plain data, the reasons a call can stop, and the state right after reset (10_state.md). -/

namespace Sys2Proof.Machine

/-- The fault kinds of 60_exceptions.md R210. -/
inductive FaultKind where
  /-- Code 1: the word matches no row of the opcode map (60_exceptions.md R211). -/
  | unknownInstruction
  /-- Code 2: CALL with a full stack (60_exceptions.md R212). -/
  | stackOverflow
  /-- Code 3: RET with an empty stack (60_exceptions.md R212). -/
  | stackUnderflow
  /-- Code 4: `pc` odd or past the memory (20_memory.md R57). -/
  | fetch
  /-- Code 5: a data address at or above `MEM_SIZE` (20_memory.md R55). -/
  | memoryBounds
  /-- Code 6: a key skip on a value above 15 (45_keyboard_timers.md R190, R191). -/
  | keyIndex
  /-- Code 7: FX1E past 16 bits (43_index_memory.md R141). -/
  | indexOverflow
  deriving DecidableEq, Repr

/-- The fault record `(kind, addr, word, info)` of 60_exceptions.md R210. `word` is absent for a fetch fault;
`info` is the first bad address or the key register's value, where the kind has one. -/
structure FaultRecord where
  kind : FaultKind
  addr : Word
  word : Option Word
  info : Option Nat
  deriving DecidableEq, Repr

/-- Memory as (address, byte) pairs: addresses rising, no entry equal to 0x00, what an unlisted address reads as
(70_reset_and_hazards.md R240: memory holds 0x00 everywhere until `load`). -/
abbrev Memory := List Host.Cell

/-- A pixel grid as (position, byte) pairs, the position row-major; unlisted pixels are the fill value 0x00
(44_display.md R172). -/
abbrev Grid := List (Nat × Byte)

/-- The call stack as (index, return address) pairs; unlisted entries are 0x0000 (10_state.md R25). -/
abbrev Stack := List (Nat × Word)

/-- The whole state of the block: the elements of 10_state.md R20 to R34, and two fields of the model's own
(`params`, log entry 1; `draws`, log entries 5 and 15). -/
structure State where
  /-- The parameters the block was constructed with; no operation changes them (log entry 1). -/
  params : Config.Params
  /-- V0 to VF (R20); VF is also the flag output (R21). -/
  v : Vector Byte 16
  /-- The program counter (R23). -/
  pc : Word
  /-- The index register I (R24). -/
  i : Word
  /-- The number of stack entries in use (R25). -/
  sp : Nat
  /-- The return addresses (R25). -/
  stack : Stack
  /-- The delay timer DT (R26). -/
  dt : Byte
  /-- The sound timer ST (R27). -/
  st : Byte
  /-- The key states (R28). -/
  keys : Vector Bool 16
  /-- The key latch: a wait is pending (R29). -/
  waiting : Bool
  /-- The key latch: a key was captured (R29). -/
  received : Bool
  /-- The key latch: the captured key (R29). -/
  latchedKey : Nibble
  /-- The source frame buffer (R30). -/
  fb : Grid
  /-- A draw is requested (R30). -/
  fbDirty : Bool
  /-- The filtered output buffer (R31). -/
  out : Grid
  /-- A new output frame is ready (R31). -/
  outDirty : Bool
  /-- The filter applies the corner overrides (R32). -/
  filterOn : Bool
  /-- The fault register (R33). -/
  fault : Option FaultRecord
  /-- The memory (R34). -/
  mem : Memory
  /-- How many free values were taken: which one the next CXNN or FX0A takes (log entries 5 and 15). -/
  draws : Nat
  deriving DecidableEq, Repr

/-- Why a call stops for good. No step of the block stops this way: the faults of 60_exceptions.md R210 are states
with `fault` written (log entry 2). -/
inductive Fault where
  /-- Raised by `State.construct` alone, when the parameters break 00_scope.md R9 (60_exceptions.md R216): no block
  exists and nothing runs. Safe: the manual stops there too. -/
  | configurationError
  deriving DecidableEq, Repr

/-- Calls the model has no transition for; the state stays as it was. -/
inductive Refusal where
  /-- Raised by `exec` for an instruction without a meaning; no arm raises it now. Safe. -/
  | notModelled (mnemonic : String)
  /-- Raised by `fb_read` and `out_read` outside their buffer (60_exceptions.md R217). Safe: the caller must not call. -/
  | fbReadOutOfRange
  /-- Raised by `press_key` and `release_key` with an id above 15 (60_exceptions.md R217). Safe. -/
  | keyIdOutOfRange
  /-- Raised by `load` after a load or a step (60_exceptions.md R217, 92_eei_decisions.md D34). Safe. -/
  | loadAfterStart
  /-- Raised by `load` of a program over 3584 bytes (60_exceptions.md R215): nothing is written. Safe. -/
  | loadError
  /-- Raised by any operation after a shutdown of a block without a fault, when no further operation happens
  (60_exceptions.md R225, log entry 16). Safe. -/
  | shutDown
  deriving DecidableEq, Repr

/-- The three outcomes of a step of this block. -/
abbrev Result := Host.Outcome State Fault Refusal

/-- The block right after its creation with the default parameters and `RESET_POLICY = zero`
(10_state.md R35, 70_reset_and_hazards.md R240); no program is loaded yet. -/
def State.reset : State where
  params := Config.Params.default
  v := Vector.replicate 16 0x00#8
  pc := 0x200#16
  i := 0x0000#16
  sp := 0
  stack := []
  dt := 0x00#8
  st := 0x00#8
  keys := Vector.replicate 16 false
  waiting := false
  received := false
  latchedKey := 0#4
  fb := []
  fbDirty := false
  out := []
  outDirty := false
  filterOn := true
  fault := none
  mem := []
  draws := 0

end Sys2Proof.Machine
end

