-- ==== Sys2Proof/Machine/Flags.lean ====
section
/-! DEFINITION. Every flag computation the spec gives; each goes to VF (10_state.md R21, R22). -/

namespace Sys2Proof.Machine

/-- `bool(c)`: 1 if the condition holds, else 0 (00_scope.md R10). -/
def flagByte (c : Bool) : Byte := if c then 0x01#8 else 0x00#8

/-- An 8-bit add overflowed (42_alu.md R127). -/
def addCarries (a b : Byte) : Bool := decide (255 < a.toNat + b.toNat)

/-- The 8-bit subtraction `a - b` wrapped: the inverse of a no-borrow flag (42_alu.md R128, R130). -/
def subWraps (a b : Byte) : Bool := decide (a.toNat < b.toNat)

/-- Bit 0 of the value before a right shift (42_alu.md R129). -/
def shiftedOutRight (a : Byte) : Bool := a.getLsbD 0

/-- Bit 7 of the value before a left shift (42_alu.md R131). -/
def shiftedOutLeft (a : Byte) : Bool := a.getLsbD 7

/-- The index sum exceeds 0xFFF (43_index_memory.md R141). -/
def indexExceeds (sum : Nat) : Bool := decide (0xFFF < sum)

/-- A drawn pixel counts as a collision: under the spec's rule when it was 0x00 (44_display.md R166), under the
other reading of 93_implementation_defined.md U4 when it was 0xFF (log entry 7). -/
def pixelCollides : Config.CollisionRule → Byte → Bool
  | .unsetToSet, old => decide (old = 0x00#8)
  | .setToUnset, old => decide (old = 0xFF#8)

end Sys2Proof.Machine
end

