-- ==== Sys2Proof/Machine/Sparse.lean ====
section
/-! DEFINITION. Arrays as sparse lists in one canonical form: keys strictly rising, no entry equal to the fill value. -/

namespace Sys2Proof.Machine

variable {α : Type}

/-- The value at key `k`, the fill value `d` where none is listed. The list is sorted, so the search stops at the
first key above `k`. -/
def sparseGet (d : α) : List (Nat × α) → Nat → α
  | [], _ => d
  | (a, w) :: m, k => if k < a then d else if a = k then w else sparseGet d m k

/-- Put an entry in front, unless it is the fill value, which is never listed. -/
def sparseCons [DecidableEq α] (d : α) (k : Nat) (w : α) (m : List (Nat × α)) : List (Nat × α) :=
  if w = d then m else (k, w) :: m

/-- Write `w` at key `k`, keeping the canonical form. -/
def sparseSet [DecidableEq α] (d : α) : List (Nat × α) → Nat → α → List (Nat × α)
  | [], k, w => sparseCons d k w []
  | (a, u) :: m, k, w =>
    if k < a then sparseCons d k w ((a, u) :: m)
    else if a = k then sparseCons d k w m
    else (a, u) :: sparseSet d m k w

/-- The array of `n` entries whose entry `base + j` is `f (base + j)`. -/
def sparseFrom [DecidableEq α] (d : α) (f : Nat → α) : Nat → Nat → List (Nat × α)
  | _, 0 => []
  | base, n + 1 => sparseCons d base (f base) (sparseFrom d f (base + 1) n)

/-- The array of `n` entries whose entry `k` is `f k`. -/
def sparseOfFn [DecidableEq α] (d : α) (f : Nat → α) (n : Nat) : List (Nat × α) := sparseFrom d f 0 n

/-- Write the values of a list at `base`, `base + 1`, and so on. -/
def sparseWriteList [DecidableEq α] (d : α) (m : List (Nat × α)) (base : Nat) : List α → List (Nat × α)
  | [] => m
  | w :: ws => sparseWriteList d (sparseSet d m base w) (base + 1) ws

/-- The canonical form of an array of `n` entries with fill value `d`: keys strictly rising and below `n`, no entry
equal to `d`. Equal arrays are then equal lists. -/
abbrev SparseWf (d : α) (n : Nat) (m : List (Nat × α)) : Prop :=
  List.Pairwise (fun a b => a.1 < b.1) m ∧ ∀ e ∈ m, e.1 < n ∧ e.2 ≠ d

/-- Memory is in canonical form: rising addresses below `MEM_SIZE`, no entry 0x00 (20_memory.md R50). -/
abbrev Memory.wf (m : Memory) : Prop := SparseWf (0x00#8) Config.memSize m

end Sys2Proof.Machine
end

