-- ==== Sys2Proof/Machine/Ops.lean ====
section
/-! DEFINITION. The named operations over registers, stack, memory, frame buffer and fault register. -/

namespace Sys2Proof.Machine

/-! Registers. -/

/-- Register V[r] (00_scope.md R11). -/
def State.getV (s : State) (r : Nibble) : Byte := s.v[r.toNat]'(r.isLt)

/-- `V[r] <- b` (00_scope.md R11). No register is hardwired (10_state.md R20). -/
def State.setV (s : State) (r : Nibble) (b : Byte) : State := { s with v := s.v.set r.toNat b r.isLt }

/-- The index of the flag register VF (10_state.md R21). -/
def flagReg : Nibble := 0xF#4

/-- `V[0xF] <- bool(c)`. -/
def State.setFlag (s : State) (c : Bool) : State := s.setV flagReg (flagByte c)

/-- Write a result and then the flag, in this order, so the flag wins when X = F (42_alu.md R120). -/
def State.setVFlag (s : State) (r : Nibble) (b : Byte) (c : Bool) : State := (s.setV r b).setFlag c

/-- `I <- a`. -/
def State.setI (s : State) (a : Word) : State := { s with i := a }

/-! Program counter. -/

/-- `pc <- a`. -/
def State.jump (s : State) (a : Word) : State := { s with pc := a }

/-- `advance()`: `pc <- (pc + 2) mod 2^16` (41_control_flow.md R100). -/
def State.advance (s : State) : State := s.jump (s.pc + 2#16)

/-- A conditional skip: add 4 when taken, else 2 (41_control_flow.md R100, R104). -/
def State.skipIf (s : State) (c : Bool) : State := if c then s.jump (s.pc + 4#16) else s.advance

/-! Call stack (10_state.md R25). -/

/-- `stack[j]`. -/
def State.stackAt (s : State) (j : Nat) : Word := sparseGet 0x0000#16 s.stack j

/-- Write `stack[sp]`, then increment `sp`. -/
def State.push (s : State) (a : Word) : State :=
  { s with stack := sparseSet 0x0000#16 s.stack s.sp a, sp := s.sp + 1 }

/-- Decrement `sp`; the entry above keeps its value (41_control_flow.md R101). -/
def State.dropTop (s : State) : State := { s with sp := s.sp - 1 }

/-! Memory (20_memory.md R50 to R59). -/

/-- The byte at address `a`. -/
def State.readByte (s : State) (a : Nat) : Byte := sparseGet 0x00#8 s.mem a

/-- Write one byte of memory; outside the memory the access is not performed (20_memory.md R55). -/
def memWrite (m : Memory) (a : Nat) (b : Byte) : Memory := if a < Config.memSize then sparseSet 0x00#8 m a b else m

/-- Write the values of a list at `a`, `a + 1`, and so on; unless all lie in the memory none is written
(20_memory.md R55). -/
def memWriteList (m : Memory) (a : Nat) (bs : List Byte) : Memory :=
  if a + bs.length ≤ Config.memSize then sparseWriteList 0x00#8 m a bs else m

/-- Write the byte at address `a`. -/
def State.writeByte (s : State) (a : Nat) (b : Byte) : State := { s with mem := memWrite s.mem a b }

/-- Write the values of a list from address `a` on. -/
def State.writeBytes (s : State) (a : Nat) (bs : List Byte) : State := { s with mem := memWriteList s.mem a bs }

/-- `pc` can be fetched from: even, and both bytes inside the memory (20_memory.md R57). -/
def State.fetchable (s : State) : Bool := decide (s.pc.toNat % 2 = 0 ∧ s.pc.toNat + 1 < Config.memSize)

/-- The big-endian word at `pc` (20_memory.md R54, R57). -/
def State.fetchedWord (s : State) : Word := wordOfBytes (s.readByte s.pc.toNat) (s.readByte (s.pc.toNat + 1))

/-- Put a word where the next fetch reads it: its high byte at `pc`, its low byte at `pc + 1` (20_memory.md R54); a
`pc` past the memory has no such place. -/
def State.placeWord (s : State) (w : Word) : State :=
  s.writeBytes s.pc.toNat [(bytesOfWord w).1, (bytesOfWord w).2]

/-! Frame buffer (44_display.md R170 to R173). -/

/-- The position of pixel (x, y) in a row-major grid of width `w`. -/
def gridKey (w x y : Nat) : Nat := y * w + x

/-- `fb[x][y]`. -/
def State.pixel (s : State) (x y : Nat) : Byte := sparseGet 0x00#8 s.fb (gridKey s.params.fbW x y)

/-- `out[x][y]`. -/
def State.outPixel (s : State) (x y : Nat) : Byte := sparseGet 0x00#8 s.out (gridKey s.params.outW x y)

/-- (x, y) lies in the frame buffer. -/
def inFrame (p : Config.Params) (x y : Nat) : Bool := decide (x < p.fbW ∧ y < p.fbH)

/-- (x, y) lies in the output buffer. -/
def inOut (p : Config.Params) (x y : Nat) : Bool := decide (x < p.outW ∧ y < p.outH)

/-- `FbWrite(x, y, b)` on a grid: outside the buffer it has no effect (44_display.md R171). -/
def gridWrite (p : Config.Params) (g : Grid) (x y : Nat) (b : Byte) : Grid :=
  if inFrame p x y then sparseSet 0x00#8 g (gridKey p.fbW x y) b else g

/-- `fb_dirty <- true` (44_display.md R173). -/
def State.markDirty (s : State) : State := { s with fbDirty := true }

/-- The frame buffer becomes `g`. -/
def State.setFb (s : State) (g : Grid) : State := { s with fb := g }

/-! Timers (10_state.md R26, R27). -/

/-- `DT <- b`. -/
def State.setDT (s : State) (b : Byte) : State := { s with dt := b }

/-- `ST <- b`. -/
def State.setST (s : State) (b : Byte) : State := { s with st := b }

/-! Keys and the key latch (10_state.md R28, R29). -/

/-- A wait begins: `waiting <- true`. -/
def State.startWait (s : State) : State := { s with waiting := true }

/-- A wait ends: `waiting <- false`, `received <- false`. -/
def State.endWait (s : State) : State := { s with waiting := false, received := false }

/-- `keys[k]`. -/
def State.keyDown (s : State) (k : Nibble) : Bool := s.keys[k.toNat]'(k.isLt)

/-- `keys[k] <- c`. -/
def State.setKey (s : State) (k : Nibble) (c : Bool) : State := { s with keys := s.keys.set k.toNat c k.isLt }

/-! Taking a fault (60_exceptions.md R210 to R221). There is no trap entry beyond this record, and no return from
one (R220, R221): once `fault` is written no operation changes the state (R214). -/

/-- The code of a fault kind (60_exceptions.md R210). -/
def FaultKind.code : FaultKind → Nat
  | .unknownInstruction => 1
  | .stackOverflow => 2
  | .stackUnderflow => 3
  | .fetch => 4
  | .memoryBounds => 5
  | .keyIndex => 6
  | .indexOverflow => 7

/-- Raise a fault: only `fault` is written, with `pc` of the faulting instruction as its address
(60_exceptions.md R210, R213). -/
def State.raise (s : State) (kind : FaultKind) (word : Option Word) (info : Option Nat) : State :=
  { s with fault := some { kind := kind, addr := s.pc, word := word, info := info } }

/-- Raise a fault inside instruction `i`: the record holds its word (log entry 3). -/
def State.raiseIn (s : State) (i : Instr) (kind : FaultKind) (info : Option Nat) : State :=
  s.raise kind (some (encode i)) info

/-- A faulted block is frozen: an operation on it changes nothing (60_exceptions.md R214). -/
def State.unlessFaulted (s : State) (f : State → State) : State := if s.fault.isSome then s else f s

/-! Free values: the random byte (42_alu.md R132) and the latched key after FX0A (10_state.md R29). -/

/-- `RandomByte()`: the free value the next CXNN takes (log entry 5). -/
def State.nextRandom (s : State) : Byte := Config.randomByte s.draws

/-- One free value was taken. -/
def State.drawn (s : State) : State := { s with draws := s.draws + 1 }

/-- What FX0A does to `latched_key`: it keeps it (45_keyboard_timers.md R193); under the other reading, of 10_state.md
R29, it writes a free value (log entry 15). -/
def State.settleLatch (s : State) : State :=
  { s with
    latchedKey := match s.params.latch with
      | .kept => s.latchedKey
      | .written => Config.freeLatchedKey s.draws
    draws := match s.params.latch with
      | .kept => s.draws
      | .written => s.draws + 1 }

end Sys2Proof.Machine
end

