-- ==== Sys2Proof/Machine/Operands.lean ====
section
/-! DEFINITION. The operand forms: addresses, key ids, digits, glyph addresses, the memory range check. -/

namespace Sys2Proof.Machine

/-- The target NNN, zero-extended (30_encoding.md R75). -/
def absTarget (nnn : Addr12) : Word := nnn.setWidth 16

/-- The target NNN + V0, not reduced modulo 4096 (41_control_flow.md R108). -/
def State.v0Target (s : State) (nnn : Addr12) : Word := nnn.setWidth 16 + (s.getV 0x0#4).setWidth 16

/-- The data address `I + k`, an exact sum (43_index_memory.md R146, 20_memory.md R56). -/
def State.indexAddr (s : State) (k : Nat) : Nat := s.i.toNat + k

/-- The last address of an access, `I + k`, lies in the memory (20_memory.md R55). -/
def State.reaches (s : State) (k : Nat) : Bool := decide (s.indexAddr k < Config.memSize)

/-- The first address at or above `MEM_SIZE` that an access from `I` on touches (43_index_memory.md R143). -/
def State.firstBadAddr (s : State) : Nat := max s.i.toNat Config.memSize

/-- `n` values of the registers V0 on, the operands of FX55 (43_index_memory.md R144). -/
def State.regList (s : State) (n : Nat) : List Byte := (List.range n).map fun k => s.getV (BitVec.ofNat 4 k)

/-- Load V0 to V(n-1) from `I` on (43_index_memory.md R145). -/
def State.loadRegs (s : State) : Nat → State
  | 0 => s
  | n + 1 => (s.loadRegs n).setV (BitVec.ofNat 4 n) (s.readByte (s.indexAddr n))

/-- The key id a register value names, if it is at most 15 (45_keyboard_timers.md R190). -/
def keyOf (b : Byte) : Option Nibble := if 15 < b.toNat then none else some (b.setWidth 4)

/-- The glyph address of a value, five times it, without a mask (43_index_memory.md R142). -/
def glyphAddr (b : Byte) : Word := b.setWidth 16 * 5#16

/-- The decimal digits of a byte, most significant first (43_index_memory.md R143). -/
def decimalDigits (b : Byte) : List Byte :=
  [BitVec.ofNat 8 (b.toNat / 100), BitVec.ofNat 8 (b.toNat / 10 % 10), BitVec.ofNat 8 (b.toNat % 10)]

/-- The index sum `I + V[x]`, exact (43_index_memory.md R141). -/
def State.indexSum (s : State) (x : Nibble) : Nat := s.i.toNat + (s.getV x).toNat

end Sys2Proof.Machine
end

