-- ==== Sys2Proof/Machine/Alu.lean ====
section
/-! DEFINITION. Register loads, the ALU and the random load (42_alu.md R120 to R133). -/

namespace Sys2Proof.Machine

/-- 6XNN (42_alu.md R121). -/
def execLdImm (x : Nibble) (nn : Byte) (s : State) : Result := .next (s.setV x nn).advance

/-- 7XNN; no flag (42_alu.md R122). -/
def execAddImm (x : Nibble) (nn : Byte) (s : State) : Result := .next (s.setV x (s.getV x + nn)).advance

/-- 8XY0 (42_alu.md R123). -/
def execLdReg (x y : Nibble) (s : State) : Result := .next (s.setV x (s.getV y)).advance

/-- 8XY1; VF is not written (42_alu.md R124). -/
def execOrReg (x y : Nibble) (s : State) : Result := .next (s.setV x (s.getV x ||| s.getV y)).advance

/-- 8XY2; VF is not written (42_alu.md R125). -/
def execAndReg (x y : Nibble) (s : State) : Result := .next (s.setV x (s.getV x &&& s.getV y)).advance

/-- 8XY3; VF is not written (42_alu.md R126). -/
def execXorReg (x y : Nibble) (s : State) : Result := .next (s.setV x (s.getV x ^^^ s.getV y)).advance

/-- 8XY4 (42_alu.md R127). -/
def execAddReg (x y : Nibble) (s : State) : Result :=
  .next (s.setVFlag x (s.getV x + s.getV y) (addCarries (s.getV x) (s.getV y))).advance

/-- 8XY5 (42_alu.md R128). -/
def execSub (x y : Nibble) (s : State) : Result :=
  .next (s.setVFlag x (s.getV x - s.getV y) (subWraps (s.getV x) (s.getV y))).advance

/-- 8XY6; Y is ignored (42_alu.md R129). -/
def execShr (x _y : Nibble) (s : State) : Result :=
  .next (s.setVFlag x (s.getV x >>> 1) (shiftedOutRight (s.getV x))).advance

/-- 8XY7 (42_alu.md R130). -/
def execSubn (x y : Nibble) (s : State) : Result :=
  .next (s.setVFlag x (s.getV y - s.getV x) (subWraps (s.getV y) (s.getV x))).advance

/-- 8XYE; Y is ignored (42_alu.md R131). -/
def execShl (x _y : Nibble) (s : State) : Result :=
  .next (s.setVFlag x (s.getV x <<< 1) (shiftedOutLeft (s.getV x))).advance

/-- CXNN: the drawn byte is a free value (42_alu.md R132, log entry 5). -/
def execRnd (x : Nibble) (nn : Byte) (s : State) : Result :=
  .next (s.drawn.setV x (s.nextRandom &&& nn)).advance

end Sys2Proof.Machine
end

