-- ==== Sys2Proof/Machine/Control.lean ====
section
/-! DEFINITION. Control transfer and the conditional skips on registers (41_control_flow.md R101 to R109). -/

namespace Sys2Proof.Machine

/-- 00EE (41_control_flow.md R101). -/
def execRet (s : State) : Result :=
  if s.sp = 0 then .next (s.raiseIn .ret .stackUnderflow none)
  else .next (s.dropTop.jump (s.stackAt (s.sp - 1)))

/-- 1NNN (41_control_flow.md R102). -/
def execJp (nnn : Addr12) (s : State) : Result := .next (s.jump (absTarget nnn))

/-- 2NNN (41_control_flow.md R103). -/
def execCall (nnn : Addr12) (s : State) : Result :=
  if s.sp = s.params.stackDepth then .next (s.raiseIn (.call nnn) .stackOverflow none)
  else .next ((s.push (s.pc + 2#16)).jump (absTarget nnn))

/-- BNNN (41_control_flow.md R108). -/
def execJpV0 (nnn : Addr12) (s : State) : Result := .next (s.jump (s.v0Target nnn))

/-- 3XNN (41_control_flow.md R104). -/
def execSeImm (x : Nibble) (nn : Byte) (s : State) : Result := .next (s.skipIf (decide (s.getV x = nn)))

/-- 4XNN (41_control_flow.md R105). -/
def execSneImm (x : Nibble) (nn : Byte) (s : State) : Result := .next (s.skipIf (decide (s.getV x ≠ nn)))

/-- 5XY0 (41_control_flow.md R106). -/
def execSeReg (x y : Nibble) (s : State) : Result := .next (s.skipIf (decide (s.getV x = s.getV y)))

/-- 9XY0 (41_control_flow.md R107). -/
def execSneReg (x y : Nibble) (s : State) : Result := .next (s.skipIf (decide (s.getV x ≠ s.getV y)))

end Sys2Proof.Machine
end

