-- ==== Sys2Proof/Machine/Display.lean ====
section
/-! DEFINITION. Display clear and sprite draw (44_display.md R160 to R167). -/

namespace Sys2Proof.Machine

/-- 00E0: every pixel 0x00, then the buffer is dirty (44_display.md R160). -/
def execCls (s : State) : Result := .next (s.setFb []).markDirty.advance

/-- What a draw has done so far: the pixels, and whether one collided. -/
structure Canvas where
  grid : Grid
  hit : Bool
  deriving DecidableEq, Repr

/-- Toggle one pixel; outside the buffer it is neither read nor written (44_display.md R165, R166). -/
def togglePixel (p : Config.Params) (x y : Nat) (c : Canvas) : Canvas :=
  if inFrame p x y then
    let old := sparseGet 0x00#8 c.grid (gridKey p.fbW x y)
    { grid := gridWrite p c.grid x y (old ^^^ 0xFF#8), hit := c.hit || pixelCollides p.collision old }
  else c

/-- The coordinate `start + k`, modulo 256 (44_display.md R163). -/
def wrapCoord (start : Byte) (k : Nat) : Nat := (start.toNat + k) % 256

/-- Column `k` of a row byte is bit `7 - k` (44_display.md R164). -/
def columnBit (row : Byte) (k : Nat) : Bool := row.getLsbD (7 - k)

/-- Draw the first `n` columns of one row at height `y` (44_display.md R161). -/
def drawColumns (p : Config.Params) (row x0 : Byte) (y : Nat) : Nat → Canvas → Canvas
  | 0, c => c
  | n + 1, c =>
    let before := drawColumns p row x0 y n c
    if columnBit row n then togglePixel p (wrapCoord x0 n) y before else before

/-- Draw the first `n` rows of the sprite at `I`; row `r` is the byte at `I + r` (44_display.md R162). -/
def drawRows (s : State) (x0 y0 : Byte) : Nat → Canvas → Canvas
  | 0, c => c
  | n + 1, c =>
    drawColumns s.params (s.readByte (s.indexAddr n)) x0 (wrapCoord y0 n) 8 (drawRows s x0 y0 n c)

/-- The canvas after the whole sprite of `n` rows. -/
def State.drawSprite (s : State) (x0 y0 : Byte) (n : Nat) : Canvas :=
  drawRows s x0 y0 n { grid := s.fb, hit := false }

/-- A sprite row lies at or above `MEM_SIZE`; a sprite of no rows reads no memory (44_display.md R161). -/
def State.spriteOutside (s : State) (n : Nat) : Bool := decide (0 < n ∧ Config.memSize ≤ s.i.toNat + n - 1)

/-- DXYN (44_display.md R161). -/
def execDrw (x y n : Nibble) (s : State) : Result :=
  if s.spriteOutside n.toNat then .next (s.raiseIn (.drw x y n) .memoryBounds (some s.firstBadAddr))
  else
    let c := s.drawSprite (s.getV x) (s.getV y) n.toNat
    .next ((s.setFb c.grid).setFlag c.hit).markDirty.advance

end Sys2Proof.Machine
end

