-- ==== Sys2Proof/Machine/Index.lean ====
section
/-! DEFINITION. The index register and the transfers through it (43_index_memory.md R140 to R146). -/

namespace Sys2Proof.Machine

/-- ANNN (43_index_memory.md R140). -/
def execLdI (nnn : Addr12) (s : State) : Result := .next (s.setI (absTarget nnn)).advance

/-- FX1E (43_index_memory.md R141). -/
def execAddI (x : Nibble) (s : State) : Result :=
  if 0xFFFF < s.indexSum x then .next (s.raiseIn (.addI x) .indexOverflow none)
  else .next ((s.setI (BitVec.ofNat 16 (s.indexSum x))).setFlag (indexExceeds (s.indexSum x))).advance

/-- FX29 (43_index_memory.md R142). -/
def execLdF (x : Nibble) (s : State) : Result := .next (s.setI (glyphAddr (s.getV x))).advance

/-- FX33 (43_index_memory.md R143). -/
def execLdB (x : Nibble) (s : State) : Result :=
  if s.reaches 2 then .next (s.writeBytes (s.indexAddr 0) (decimalDigits (s.getV x))).advance
  else .next (s.raiseIn (.ldB x) .memoryBounds (some s.firstBadAddr))

/-- FX55 (43_index_memory.md R144). -/
def execLdMemVx (x : Nibble) (s : State) : Result :=
  if s.reaches x.toNat then .next (s.writeBytes (s.indexAddr 0) (s.regList (x.toNat + 1))).advance
  else .next (s.raiseIn (.ldMemVx x) .memoryBounds (some s.firstBadAddr))

/-- FX65 (43_index_memory.md R145). -/
def execLdVxMem (x : Nibble) (s : State) : Result :=
  if s.reaches x.toNat then .next (s.loadRegs (x.toNat + 1)).advance
  else .next (s.raiseIn (.ldVxMem x) .memoryBounds (some s.firstBadAddr))

end Sys2Proof.Machine
end

