-- ==== Sys2Proof/Machine/Keyboard.lean ====
section
/-! DEFINITION. Key skips, the blocking key-wait and the timer instructions (45_keyboard_timers.md R190 to R195). -/

namespace Sys2Proof.Machine

/-- EX9E (45_keyboard_timers.md R190). -/
def execSkp (x : Nibble) (s : State) : Result :=
  match keyOf (s.getV x) with
  | none => .next (s.raiseIn (.skp x) .keyIndex (some (s.getV x).toNat))
  | some k => .next (s.skipIf (s.keyDown k))

/-- EXA1 (45_keyboard_timers.md R191). -/
def execSknp (x : Nibble) (s : State) : Result :=
  match keyOf (s.getV x) with
  | none => .next (s.raiseIn (.sknp x) .keyIndex (some (s.getV x).toNat))
  | some k => .next (s.skipIf (!s.keyDown k))

/-- FX07 (45_keyboard_timers.md R192). -/
def execLdVxDT (x : Nibble) (s : State) : Result := .next (s.setV x s.dt).advance

/-- FX0A, a polling wait: the pseudocode of 45_keyboard_timers.md R193, which keeps `latchedKey`. Only a block built
with the other reading of 10_state.md R29 writes it, where a wait starts or ends (log entry 15). -/
def execLdVxK (x : Nibble) (s : State) : Result :=
  if s.waiting then
    if s.received then
      .next (s.endWait.settleLatch.setV x (s.latchedKey.setWidth 8)).advance
    else .next s
  else .next s.startWait.settleLatch

/-- FX15 (45_keyboard_timers.md R194). -/
def execLdDTVx (x : Nibble) (s : State) : Result := .next (s.setDT (s.getV x)).advance

/-- FX18 (45_keyboard_timers.md R195). -/
def execLdSTVx (x : Nibble) (s : State) : Result := .next (s.setST (s.getV x)).advance

end Sys2Proof.Machine
end

