-- ==== Sys2Proof/Machine/Step.lean ====
section
/-! DEFINITION. The step: fetch, decode, run one instruction (41_control_flow.md R100). -/

namespace Sys2Proof.Machine

/-- `step()` of 41_control_flow.md R100: a faulted block stays as it is (60_exceptions.md R214), then the fetch fault,
the unknown word and the instruction's own fault are checked in this order (60_exceptions.md R219). -/
def step (s : State) : Host.Outcome State Fault Refusal :=
  if s.fault.isSome then .next s
  else if s.fetchable then
    match decode s.fetchedWord with
    | .instr i => exec i s
    | .unknown w => .next (s.raise .unknownInstruction (some w) none)
  else .next (s.raise .fetch none none)

/-- `s` with a table word placed where `step` fetches its next instruction: its high byte at `pc`, its low byte at
`pc + 1`; the bits above `nbits` are 0. It stands for the load of a program (log entry 8). -/
def State.withFetchWord (s : State) (nbits w : Nat) : State := s.placeWord (BitVec.ofNat 16 (w % 2 ^ nbits))

end Sys2Proof.Machine
end

