-- ==== Sys2Proof/Machine/Filter.lean ====
section
/-! DEFINITION. The 2x edge-detection upscaling filter (44_display.md R176 to R181). -/

namespace Sys2Proof.Machine

/-- A pixel and its four neighbours (44_display.md R177). -/
structure Neighbours where
  centre : Byte
  top : Byte
  left : Byte
  right : Byte
  bottom : Byte
  deriving DecidableEq, Repr

/-- The neighbours of source pixel (x, y), each clamped at the buffer's edges by reusing the centre
(44_display.md R177). -/
def State.neighbours (s : State) (x y : Nat) : Neighbours where
  centre := s.pixel x y
  top := if 0 < y then s.pixel x (y - 1) else s.pixel x y
  left := if 0 < x then s.pixel (x - 1) y else s.pixel x y
  right := if x < s.params.fbW - 1 then s.pixel (x + 1) y else s.pixel x y
  bottom := if y < s.params.fbH - 1 then s.pixel x (y + 1) else s.pixel x y

/-- Corner a, top-left (44_display.md R179). -/
def cornerA (n : Neighbours) : Byte :=
  if n.left = n.top ∧ n.left ≠ n.bottom ∧ n.top ≠ n.right then n.left else n.centre

/-- Corner b, top-right (44_display.md R179). -/
def cornerB (n : Neighbours) : Byte :=
  if n.top = n.right ∧ n.top ≠ n.left ∧ n.right ≠ n.bottom then n.top else n.centre

/-- Corner c, bottom-left (44_display.md R179). -/
def cornerC (n : Neighbours) : Byte :=
  if n.left = n.bottom ∧ n.left ≠ n.top ∧ n.bottom ≠ n.right then n.left else n.centre

/-- Corner d, bottom-right (44_display.md R179). -/
def cornerD (n : Neighbours) : Byte :=
  if n.right = n.bottom ∧ n.right ≠ n.top ∧ n.bottom ≠ n.left then n.right else n.centre

/-- The cell of a 2x2 block at column `dx`, row `dy` of the block (44_display.md R178, R179). -/
def blockCell (n : Neighbours) (dx dy : Nat) : Byte :=
  if dy = 0 then (if dx = 0 then cornerA n else cornerB n) else (if dx = 0 then cornerC n else cornerD n)

/-- What one pass writes to output cell (x, y): the broadcast, with the corner overrides when the filter is on
(44_display.md R178, R179, R181). -/
def State.filterCell (s : State) (x y : Nat) : Byte :=
  if s.filterOn then blockCell (s.neighbours (x / 2) (y / 2)) (x % 2) (y % 2) else s.pixel (x / 2) (y / 2)

/-- The whole output of one pass, in row-major order. -/
def State.filterOutput (s : State) : Grid :=
  sparseOfFn 0x00#8 (fun k => s.filterCell (k % s.params.outW) (k / s.params.outW)) (s.params.outW * s.params.outH)

end Sys2Proof.Machine
end

