-- ==== Sys2Proof/Machine/Reset.lean ====
section
/-! DEFINITION. Construction of a block and the load of a program (70_reset_and_hazards.md R240 to R242). -/

namespace Sys2Proof.Machine

/-- The values drawn at creation under `RESET_POLICY = draw` (10_state.md R35, 92_eei_decisions.md D20). The stack
and the memory are given from index 0 on; what the lists do not reach is 0. -/
structure DrawnValues where
  v : Vector Byte 16
  i : Word
  stack : List Word
  dt : Byte
  st : Byte
  keys : Vector Bool 16
  latchedKey : Nibble
  mem : List Byte
  deriving DecidableEq, Repr

/-- `RESET_POLICY` (00_scope.md R8). -/
inductive ResetPolicy where
  /-- Every value the source does not give is 0 or false. -/
  | zero
  /-- Those values are free inputs of the creation. -/
  | draw (d : DrawnValues)
  deriving DecidableEq, Repr

/-- The block at its creation with all drawn elements 0 (10_state.md R35, 70_reset_and_hazards.md R240). -/
def State.createZero (p : Config.Params) : State :=
  { State.reset with params := p, filterOn := p.filterOnAtReset }

/-- The block at its creation (10_state.md R35): the flags, the fault register, the fill and `filter_on` are never
drawn. Only the `STACK_DEPTH` entries and `MEM_SIZE` bytes that exist are taken from a draw. R35 draws the memory outside
the font and the program, which only `load` places: before it the model draws every byte (log entry 18). -/
def State.create (p : Config.Params) : ResetPolicy → State
  | .zero => State.createZero p
  | .draw d =>
    { State.createZero p with
      v := d.v
      i := d.i
      stack := sparseWriteList 0x0000#16 [] 0 (d.stack.take p.stackDepth)
      dt := d.dt
      st := d.st
      keys := d.keys
      latchedKey := d.latchedKey
      mem := sparseWriteList 0x00#8 [] 0 (d.mem.take Config.memSize) }

/-- Construction checks the parameters: a block that breaks 00_scope.md R9 is not constructed (60_exceptions.md R216). -/
def State.construct (p : Config.Params) (r : ResetPolicy) : Result :=
  if p.WellFormed then .next (State.create p r) else .fault .configurationError

/-- The font at 0x000, then the program at `ENTRY` (70_reset_and_hazards.md R241). -/
def State.placeProgram (s : State) (bytes : List Byte) : State :=
  (s.writeBytes 0 s.params.font).writeBytes Config.entry bytes

/-- `load(bytes)` before the first step: a program over 3584 bytes is rejected and nothing is written
(70_reset_and_hazards.md R241, R242). -/
def State.load (s : State) (bytes : List Byte) : Result :=
  if Config.loadLimit < bytes.length then .refused .loadError
  else .next (s.unlessFaulted fun s => s.placeProgram bytes)

end Sys2Proof.Machine
end

