-- ==== Sys2Proof/Machine/HostOps.lean ====
section
/-! DEFINITION. The operations of the block's interface other than `step` (00_scope.md R7, 60_exceptions.md R232). -/

namespace Sys2Proof.Machine

/-! Timers (45_keyboard_timers.md R198). -/

/-- One countdown: minus 1 if nonzero. -/
def countDown (b : Byte) : Byte := if b = 0x00#8 then b else b - 0x01#8

/-- `tick()`. -/
def State.tick (s : State) : State := s.unlessFaulted fun s => { s with dt := countDown s.dt, st := countDown s.st }

/-! Key events (45_keyboard_timers.md R196, R197, R199). -/

/-- A press while a wait is pending is latched, the last one wins (45_keyboard_timers.md R196). -/
def State.latchKey (s : State) (k : Nibble) : State :=
  if s.waiting then { s with latchedKey := k, received := true } else s

/-- `press_key(k)`; an id above 15 is refused. -/
def State.pressKey (s : State) (k : Nat) : Result :=
  if 15 < k then .refused .keyIdOutOfRange
  else .next (s.unlessFaulted fun s => (s.setKey (BitVec.ofNat 4 k) true).latchKey (BitVec.ofNat 4 k))

/-- `release_key(k)`; an id above 15 is refused. -/
def State.releaseKey (s : State) (k : Nat) : Result :=
  if 15 < k then .refused .keyIdOutOfRange
  else .next (s.unlessFaulted fun s => s.setKey (BitVec.ofNat 4 k) false)

/-! Frame buffer and filter (44_display.md R170 to R183). -/

/-- `toggle_filter()` (44_display.md R180). -/
def State.toggleFilter (s : State) : State := s.unlessFaulted fun s => { s with filterOn := !s.filterOn }

/-- `fb_write(x, y, b)`: outside the buffer it has no effect; `fb_dirty` is not set (44_display.md R171). -/
def State.fbWrite (s : State) (x y : Nat) (b : Byte) : State :=
  s.unlessFaulted fun s => { s with fb := gridWrite s.params s.fb x y b }

/-- `fb_mark_dirty()` (44_display.md R173). -/
def State.fbMarkDirty (s : State) : State := s.unlessFaulted State.markDirty

/-- The state after `fb_consume_dirty()`; the value it returns is `fbDirty` before (44_display.md R174). -/
def State.fbConsumeDirty (s : State) : State := s.unlessFaulted fun s => { s with fbDirty := false }

/-- `filter_pass()` (44_display.md R181). -/
def State.filterPass (s : State) : State :=
  s.unlessFaulted fun s => { s with out := s.filterOutput, outDirty := true }

/-- The state after `out_consume_dirty()`; the value it returns is `outDirty` before (44_display.md R183). -/
def State.outConsumeDirty (s : State) : State := s.unlessFaulted fun s => { s with outDirty := false }

/-! The operations as one type. -/

/-- The operations of 00_scope.md R7. -/
inductive HostOp where
  | load (bytes : List Byte)
  | step
  | tick
  | pressKey (k : Nat)
  | releaseKey (k : Nat)
  | toggleFilter
  | fbRead (x y : Nat)
  | fbWrite (x y : Nat) (b : Byte)
  | fbMarkDirty
  | fbConsumeDirty
  | filterPass
  | outRead (x y : Nat)
  | outConsumeDirty
  deriving DecidableEq, Repr

/-- The state an operation leaves, for a `load` that comes first (`Session.perform` refuses a second or later
one). The read operations leave the state as it is (44_display.md R170, R182). -/
def HostOp.apply (op : HostOp) (s : State) : Result :=
  match op with
  | .load bytes => s.load bytes
  | .step => Sys2Proof.Machine.step s
  | .tick => .next s.tick
  | .pressKey k => s.pressKey k
  | .releaseKey k => s.releaseKey k
  | .toggleFilter => .next s.toggleFilter
  | .fbRead x y => if inFrame s.params x y then .next s else .refused .fbReadOutOfRange
  | .fbWrite x y b => .next (s.fbWrite x y b)
  | .fbMarkDirty => .next s.fbMarkDirty
  | .fbConsumeDirty => .next s.fbConsumeDirty
  | .filterPass => .next s.filterPass
  | .outRead x y => if inOut s.params x y then .next s else .refused .fbReadOutOfRange
  | .outConsumeDirty => .next s.outConsumeDirty

/-- What an operation hands back to its caller (60_exceptions.md R232). -/
inductive Reply where
  | nothing
  | pixel (b : Byte)
  | dirty (c : Bool)
  deriving DecidableEq, Repr

/-- The value an accepted operation returns, from the state before it. -/
def HostOp.reply (op : HostOp) (s : State) : Reply :=
  match op with
  | .load _ => .nothing
  | .step => .nothing
  | .tick => .nothing
  | .pressKey _ => .nothing
  | .releaseKey _ => .nothing
  | .toggleFilter => .nothing
  | .fbRead x y => .pixel (s.pixel x y)
  | .fbWrite _ _ _ => .nothing
  | .fbMarkDirty => .nothing
  | .fbConsumeDirty => .dirty s.fbDirty
  | .filterPass => .nothing
  | .outRead x y => .pixel (s.outPixel x y)
  | .outConsumeDirty => .dirty s.outDirty

end Sys2Proof.Machine
end

