-- ==== Sys2Proof/Machine/Session.lean ====
section
/-! DEFINITION. The block among its agents: load before start, the hand-off slots, shutdown (60_exceptions.md R217, R222 to R225). -/

namespace Sys2Proof.Machine

/-- The block and what the environment keeps beside it (60_exceptions.md R224: the slots are no block state). -/
structure Session where
  /-- The block. -/
  block : State
  /-- A load was performed, so a second one is refused (92_eei_decisions.md D34). -/
  loaded : Bool
  /-- A step was performed, so `load` is refused from now on (60_exceptions.md R217). -/
  started : Bool
  /-- The slot from the execution agent to the filter agent (60_exceptions.md R224). -/
  n1 : Bool
  /-- The slot from the filter agent to the presentation (60_exceptions.md R224). -/
  n2 : Bool
  /-- The stop flag of the cooperative shutdown (60_exceptions.md R225). -/
  stopped : Bool
  deriving DecidableEq, Repr

/-- The environment right after a block's creation: nothing loaded or stepped, both slots empty, not stopped. No rule
gives what the slots and the stop flag hold before the first operation; empty and not set is the model's choice
(log entry 14). -/
def Session.start (s : State) : Session where
  block := s
  loaded := false
  started := false
  n1 := false
  n2 := false
  stopped := false

/-- The outcome of an operation within a session. -/
abbrev SessionResult := Host.Outcome Session Fault Refusal

/-- Whether an operation is a load. -/
def HostOp.isLoad : HostOp → Bool
  | .load _ => true
  | .step | .tick | .pressKey _ | .releaseKey _ | .toggleFilter | .fbRead _ _ | .fbWrite _ _ _ => false
  | .fbMarkDirty | .fbConsumeDirty | .filterPass | .outRead _ _ | .outConsumeDirty => false

/-- Whether an operation is a step. -/
def HostOp.isStep : HostOp → Bool
  | .step => true
  | .load _ | .tick | .pressKey _ | .releaseKey _ | .toggleFilter | .fbRead _ _ | .fbWrite _ _ _ => false
  | .fbMarkDirty | .fbConsumeDirty | .filterPass | .outRead _ _ | .outConsumeDirty => false

/-- Shutdown: the stop flag, which each agent checks at the top of its loop, and the final forced notification,
which unblocks the filter agent (60_exceptions.md R225, 90_conflicts.md C7). The controller asks for it, and a fault
forces it. -/
def Session.shutDown (e : Session) : Session := { e with stopped := true, n1 := true }

/-- A fault in any agent stops all three (60_exceptions.md R214, R225). -/
def Session.stopOnFault (e : Session) : Session := if e.block.fault.isSome then e.shutDown else e

/-- The environment after an operation that left the block at `t`: a load and a step are remembered, and a fault
stops the agents. -/
def Session.record (op : HostOp) (t : State) (e : Session) : Session :=
  Session.stopOnFault { e with block := t, loaded := e.loaded || op.isLoad, started := e.started || op.isStep }

/-- One atomic operation on the block (60_exceptions.md R222): `load` is refused after a load or a step (R217, D34),
and every operation after a shutdown (R225). On a faulted block every operation is still admitted and changes nothing
(R214, R232), although the fault stopped the agents: only their turns end then (the model's choice between R225 and
R232, log entry 16). -/
def Session.perform (op : HostOp) (e : Session) : SessionResult :=
  if e.stopped && e.block.fault.isNone then .refused .shutDown
  else if op.isLoad && (e.loaded || e.started) then .refused .loadAfterStart
  else
    match op.apply e.block with
    | .next t => .next (e.record op t)
    | .fault r => .fault r
    | .refused r => .refused r

/-- Any interleaving of the agents' operations, in their total order (60_exceptions.md R222, R223). -/
def Session.performAll : List HostOp → Session → SessionResult
  | [], e => .next e
  | op :: ops, e =>
    match e.perform op with
    | .next e' => Session.performAll ops e'
    | .fault r => .fault r
    | .refused r => .refused r

/-- The execution agent's duty after a step: consume the dirty flag and notify the filter agent; a send never
blocks and coalesces with a pending one (60_exceptions.md R224). -/
def Session.notifyFilter (e : Session) : Session :=
  { e with block := e.block.fbConsumeDirty, n1 := e.n1 || e.block.fbDirty }

/-- One turn of the execution agent: a step, the tick that may follow it, the hand-off (60_exceptions.md R223, R224).
A turn after shutdown does nothing (R225). -/
def Session.executionTurn (ticks : Bool) (e : Session) : SessionResult :=
  if e.stopped then .next e
  else
    match e.perform .step with
    | .next e' =>
      .next (Session.notifyFilter (if ticks then { e' with block := e'.block.tick } else e'))
    | .fault r => .fault r
    | .refused r => .refused r

/-- The filter agent is parked on its channel (60_exceptions.md R224, R225). -/
def Session.filterParked (e : Session) : Bool := !e.n1

/-- One turn of the filter agent: without a notification it waits; else it runs a pass and forwards the output's
dirty flag (60_exceptions.md R224). A turn after shutdown does nothing (R225). -/
def Session.filterTurn (e : Session) : Session :=
  if e.stopped || e.filterParked then e
  else
    let passed := e.block.filterPass
    { e with block := passed.outConsumeDirty, n1 := false, n2 := e.n2 || passed.outDirty }

/-- The presentation's poll of its slot, which never blocks: whether a new image is to be read, and the slot cleared
(60_exceptions.md R224). -/
def Session.presentTurn (e : Session) : Bool × Session :=
  if e.stopped then (false, e) else (e.n2, { e with n2 := false })

end Sys2Proof.Machine
end

