-- ==== Sys2Proof/Safety.lean ====
section
/-! DEFINITION. The terms claims use: the invariant of the block, what may change in a step, a run without a fault, a successful end. -/

namespace Sys2Proof.Machine

/-- The invariant of the block: memory, stack and both grids are arrays of the sizes the parameters give, in
canonical form; `sp` never leaves 0 to `STACK_DEPTH`; a captured key belongs to a pending wait (10_state.md R36). -/
abbrev State.Inv (s : State) : Prop :=
  Memory.wf s.mem ∧ SparseWf (0x0000#16) s.params.stackDepth s.stack ∧
  SparseWf (0x00#8) (s.params.fbW * s.params.fbH) s.fb ∧
  SparseWf (0x00#8) (s.params.outW * s.params.outH) s.out ∧
  s.sp ≤ s.params.stackDepth ∧ (s.received = true → s.waiting = true)

/-- Every pixel of the frame buffer is 0x00 or 0xFF (10_state.md R36). -/
abbrev State.Monochrome (s : State) : Prop := ∀ x y, s.pixel x y = 0x00#8 ∨ s.pixel x y = 0xFF#8

/-- No fault is recorded: the run is safe so far (60_exceptions.md R214). -/
abbrev State.Safe (s : State) : Prop := s.fault = none

/-- The successful end at address `h`: no fault, and the word at `pc = h` is a jump to itself
(70_reset_and_hazards.md R251). That `h` can be fetched from is the model's addition: the rule's definition does not
ask it, its reason (every step leaves the state unchanged) needs it (log entry 17). -/
abbrev State.SuccessfulEnd (h : Addr12) (s : State) : Prop :=
  s.Safe ∧ s.fetchable = true ∧ s.pc = absTarget h ∧ s.fetchedWord = 0x1#4 ++ h

/-- One named part of the state: a register, a byte of memory, a pixel, a flag. Together they are all of it. -/
inductive Part where
  | params
  | v (r : Nibble)
  | pc
  | i
  | sp
  | stack (j : Nat)
  | dt
  | st
  | key (k : Nibble)
  | waiting
  | received
  | latchedKey
  | pixel (x y : Nat)
  | fbDirty
  | outPixel (x y : Nat)
  | outDirty
  | filterOn
  | fault
  | byte (a : Nat)
  | draws
  deriving DecidableEq, Repr

/-- Two states hold the same value in a part. -/
def Part.same : Part → State → State → Prop
  | .params, s, t => s.params = t.params
  | .v r, s, t => s.getV r = t.getV r
  | .pc, s, t => s.pc = t.pc
  | .i, s, t => s.i = t.i
  | .sp, s, t => s.sp = t.sp
  | .stack j, s, t => s.stackAt j = t.stackAt j
  | .dt, s, t => s.dt = t.dt
  | .st, s, t => s.st = t.st
  | .key k, s, t => s.keyDown k = t.keyDown k
  | .waiting, s, t => s.waiting = t.waiting
  | .received, s, t => s.received = t.received
  | .latchedKey, s, t => s.latchedKey = t.latchedKey
  | .pixel x y, s, t => s.pixel x y = t.pixel x y
  | .fbDirty, s, t => s.fbDirty = t.fbDirty
  | .outPixel x y, s, t => s.outPixel x y = t.outPixel x y
  | .outDirty, s, t => s.outDirty = t.outDirty
  | .filterOn, s, t => s.filterOn = t.filterOn
  | .fault, s, t => s.fault = t.fault
  | .byte a, s, t => s.readByte a = t.readByte a
  | .draws, s, t => s.draws = t.draws

/-- The registers an instruction names as its destination (30_encoding.md R79). -/
def namesRegister (i : Instr) (r : Nibble) : Prop :=
  match i with
  | .ldImm x _ | .addImm x _ | .rnd x _ => r = x
  | .ldReg x _ | .orReg x _ | .andReg x _ | .xorReg x _ => r = x
  | .addReg x _ | .sub x _ | .shr x _ | .subn x _ | .shl x _ => r = x
  | .ldVxDT x | .ldVxK x => r = x
  | .ldVxMem x => r.toNat ≤ x.toNat
  | .cls | .ret | .jp _ | .call _ | .seImm _ _ | .sneImm _ _ | .seReg _ _ | .sneReg _ _ | .ldI _ | .jpV0 _ => False
  | .drw _ _ _ | .skp _ | .sknp _ | .ldDTVx _ | .ldSTVx _ | .addI _ | .ldF _ | .ldB _ | .ldMemVx _ => False

/-- The instructions that write VF as a side effect (10_state.md R21). -/
def writesFlag (i : Instr) : Prop :=
  match i with
  | .addReg _ _ | .sub _ _ | .shr _ _ | .subn _ _ | .shl _ _ | .addI _ | .drw _ _ _ => True
  | .cls | .ret | .jp _ | .call _ | .seImm _ _ | .sneImm _ _ | .seReg _ _ | .sneReg _ _ | .ldI _ | .jpV0 _ => False
  | .ldImm _ _ | .addImm _ _ | .rnd _ _ | .ldReg _ _ | .orReg _ _ | .andReg _ _ | .xorReg _ _ => False
  | .skp _ | .sknp _ | .ldVxDT _ | .ldVxK _ | .ldDTVx _ | .ldSTVx _ | .ldF _ | .ldB _ | .ldMemVx _ | .ldVxMem _ => False

/-- A set bit of the sprite of `n` rows at `I`, drawn at (`x0`, `y0`), lands on (px, py): row `r` is the byte at
`I + r`, column `c` its bit `7 - c`, coordinates wrap modulo 256 (44_display.md R162 to R164). -/
def State.spriteCovers (s : State) (x0 y0 : Byte) (n px py : Nat) : Prop :=
  ∃ r c, r < n ∧ c < 8 ∧ (s.readByte (s.i.toNat + r)).getLsbD (7 - c) = true ∧
    px = (x0.toNat + c) % 256 ∧ py = (y0.toNat + r) % 256

/-- The frame: every part outside `written` holds in `t` what it held in `s`. -/
def FrameOutside (written : Part → Prop) (s t : State) : Prop := ∀ p, ¬ written p → p.same s t

end Sys2Proof.Machine
end

