-- ==== Sys2Proof/Certificates/Slice0/Obligations.lean ====
section
/-! DEFINITION. The statements for the provers, from the rules of spec/; a D<n> is a decision of 92_eei_decisions.md. -/

open Sys2Proof Sys2Proof.Machine

/-! Reset, construction, step, faults. -/

/-- What reset leaves (10_state.md section 9). `pc` and `sp` are the source's; the other values are the spec's own
decisions D20, D23 and D24, under the default RESET_POLICY and parameters (the model's `State.reset`, log entry 6), and
memory before `load` reads 0x00 (70_reset_and_hazards.md section 1, log entry 8). -/
def Obligations.ResetLeavesTheListedValues : Prop :=
  State.reset.pc = 0x200#16 ∧ State.reset.sp = 0 ∧ (∀ r, State.reset.getV r = 0x00#8) ∧ State.reset.i = 0x0000#16 ∧
  (∀ j, State.reset.stackAt j = 0x0000#16) ∧ State.reset.dt = 0x00#8 ∧ State.reset.st = 0x00#8 ∧
  (∀ k, State.reset.keyDown k = false) ∧ State.reset.waiting = false ∧ State.reset.received = false ∧
  State.reset.latchedKey = 0#4 ∧ (∀ x y, State.reset.pixel x y = 0x00#8) ∧ State.reset.fbDirty = false ∧
  (∀ x y, State.reset.outPixel x y = 0x00#8) ∧ State.reset.outDirty = false ∧ State.reset.filterOn = true ∧
  State.reset.fault = none ∧ ∀ a, State.reset.readByte a = 0x00#8

/-- Construction refuses exactly the parameters that break 00_scope.md R9, with the configuration error of
60_exceptions.md R216 (the bound 256 and the font size are the spec's own, D21, D22). -/
def Obligations.ConstructionChecksTheParameters : Prop :=
  ∀ (p : Config.Params) (r : ResetPolicy),
    ((1 ≤ p.stackDepth ∧ (1 ≤ p.fbW ∧ p.fbW ≤ 256) ∧ (1 ≤ p.fbH ∧ p.fbH ≤ 256) ∧ p.outW = 2 * p.fbW ∧
        p.outH = 2 * p.fbH ∧ p.font.length = 80) →
      State.construct p r = .next (State.create p r)) ∧
    (¬(1 ≤ p.stackDepth ∧ (1 ≤ p.fbW ∧ p.fbW ≤ 256) ∧ (1 ≤ p.fbH ∧ p.fbH ≤ 256) ∧ p.outW = 2 * p.fbW ∧
        p.outH = 2 * p.fbH ∧ p.font.length = 80) →
      State.construct p r = .fault .configurationError)

/-- When the two bytes at an even `pc` inside the memory decode to an instruction, the step is that instruction's
meaning and nothing else (41_control_flow.md section 1; the big-endian fetch and its bound are 20_memory.md section 3).
Decoding bytes and decoding the fetched word agree. -/
def Obligations.StepRunsTheDecodedInstruction : Prop :=
  ∀ (s : State) (i : Instr) (rest : List Byte), s.fault = none → s.pc.toNat % 2 = 0 → s.pc.toNat + 1 < 0x1000 →
    decodeBytes (s.readByte s.pc.toNat :: s.readByte (s.pc.toNat + 1) :: rest) = .instr i rest → step s = exec i s

/-- Where a step runs no instruction: a faulted block stays as it is (D36), an odd or outside `pc` is a fetch fault
(D4), an illegal word an unknown-instruction fault; each fault writes the record and nothing else, and they are
checked in this order (41_control_flow.md section 1, 60_exceptions.md section 1). -/
def Obligations.StepWithoutAnInstruction : Prop :=
  ∀ s : State,
    (s.fault ≠ none → step s = .next s) ∧
    (s.fault = none → s.pc.toNat % 2 = 1 ∨ 0x1000 ≤ s.pc.toNat + 1 →
      step s = .next { s with fault := some ⟨.fetch, s.pc, none, none⟩ }) ∧
    ∀ w, s.fault = none → s.pc.toNat % 2 = 0 → s.pc.toNat + 1 < 0x1000 → decode s.fetchedWord = .unknown w →
      step s = .next { s with fault := some ⟨.unknownInstruction, s.pc, some w, none⟩ }

/-- Every step answers a next state, and faults are precise (60_exceptions.md section 1, decided by D19): a faulting
step writes only `fault`, with the address of the instruction and its fetched word, which only a fetch fault lacks. -/
def Obligations.FaultsArePrecise : Prop :=
  ∀ s : State, ∃ t, step s = .next t ∧ ∀ r, s.fault = none → t.fault = some r →
    t = { s with fault := some r } ∧ r.addr = s.pc ∧
    ((r.kind = .fetch ∧ r.word = none) ∨ (r.kind ≠ .fetch ∧ r.word = some s.fetchedWord))

/-- Exactly which instruction faults when, of which kind (the table of 60_exceptions.md R210, decided by D3, D5, D13,
D16). -/
def Obligations.InstructionsFaultExactlyWhen : Prop :=
  ∀ (i : Instr) (s t : State), s.fault = none → exec i s = .next t →
    ∀ kind, (∃ r, t.fault = some r ∧ r.kind = kind) ↔
      ((kind = .stackUnderflow ∧ i = .ret ∧ s.sp = 0) ∨
       (kind = .stackOverflow ∧ ∃ nnn, i = .call nnn ∧ s.sp = s.params.stackDepth) ∨
       (kind = .memoryBounds ∧ ((∃ x, i = .ldB x ∧ 0x1000 ≤ s.i.toNat + 2) ∨
          (∃ x, (i = .ldMemVx x ∨ i = .ldVxMem x) ∧ 0x1000 ≤ s.i.toNat + x.toNat) ∨
          ∃ x y n, i = .drw x y n ∧ 0 < n.toNat ∧ 0x1000 ≤ s.i.toNat + n.toNat - 1)) ∨
       (kind = .keyIndex ∧ ∃ x, (i = .skp x ∨ i = .sknp x) ∧ 15 < (s.getV x).toNat) ∨
       (kind = .indexOverflow ∧ ∃ x, i = .addI x ∧ 0xFFFF < s.i.toNat + (s.getV x).toNat))

/-- A fault is final (60_exceptions.md sections 1 and 4, decided by D36): no operation changes the state of a faulted
block; an operation that leaves the block faulted sets the stop and the final notification, and from then on no agent's
turn does anything. That the operations themselves stay admitted is the model's choice (log entry 16). -/
def Obligations.FaultedBlockIsFrozen : Prop :=
  (∀ (op : HostOp) (s t : State), s.fault ≠ none → op.apply s = .next t → t = s) ∧
  ∀ (op : HostOp) (e f : Session), e.perform op = .next f → f.block.fault ≠ none →
    f.stopped = true ∧ f.filterParked = false ∧ (∀ ticks, f.executionTurn ticks = .next f) ∧ f.filterTurn = f ∧
    f.presentTurn = (false, f) ∧ ∃ g, f.perform .step = .next g ∧ g.block = f.block

/-! Invariants. -/

/-- The state after reset meets the invariant. -/
def Obligations.ResetMeetsTheInvariant : Prop := State.reset.Inv ∧ State.reset.Monochrome

/-- Every step keeps the invariant: canonical memory, stack and grids, `sp` within the stack, a captured key only
while waiting (10_state.md section 9, derived there). -/
def Obligations.StepKeepsTheInvariant : Prop := ∀ s t : State, s.Inv → step s = .next t → t.Inv

/-- Every operation of the block keeps the invariant and the parameters, a created block meets it whatever its
parameters and reset policy, and so it holds after any interleaving of the agents' operations
(10_state.md section 9, 60_exceptions.md sections 4 and 6). -/
def Obligations.InterleavingsKeepTheInvariant : Prop :=
  (∀ (op : HostOp) (s t : State), s.Inv → op.apply s = .next t → t.Inv ∧ t.params = s.params) ∧
  (∀ (p : Config.Params) (r : ResetPolicy), (State.create p r).Inv ∧ (State.create p r).params = p) ∧
  ∀ (ops : List HostOp) (e f : Session), e.block.Inv → Session.performAll ops e = .next f →
    f.block.Inv ∧ f.block.params = e.block.params

/-- A step keeps every pixel at 0x00 or 0xFF (10_state.md section 9). -/
def Obligations.StepKeepsPixelsMonochrome : Prop :=
  ∀ s t : State, s.Inv → s.Monochrome → step s = .next t → t.Monochrome

/-! Encoding. The bit patterns other than 6XNN and 2NNN are the spec's general knowledge (30_encoding.md, its
provenance warning). -/

/-- Decoding gives back every encoded instruction, from its word and from its bytes in memory order
(30_encoding.md sections 1 to 3, 20_memory.md section 3). -/
def Obligations.DecodeOfEncodeIsTheInstruction : Prop :=
  ∀ (i : Instr) (rest : List Byte), i.WellFormed →
    decode (encode i) = .instr i ∧ decodeBytes (encodeBytes i ++ rest) = .instr i rest

/-- The decode procedure agrees with the opcode map of masks and matches (30_encoding.md section 3): a word that
decodes is the encoding of what it decodes to and matches its instruction's row and no other, and a word is unknown
exactly when it matches no row. -/
def Obligations.DecodeAgreesWithTheOpcodeMap : Prop :=
  ∀ w : Word,
    (∀ i, decode w = .instr i → encode i = w ∧
      ∀ k r, opcodeRows[k]? = some r → (r.matchesWord w = true ↔ k = rowIndex i)) ∧
    (decode w = .unknown w ↔ ∀ r ∈ opcodeRows, r.matchesWord w = false)

/-- The illegal words, class by class (30_encoding.md section 4, partly decided by D18). -/
def Obligations.IllegalWordsAreExactlyThese : Prop :=
  ∀ w : Word, decode w = .unknown w ↔
    (w.toNat / 4096 = 0 ∧ w ≠ 0x00E0#16 ∧ w ≠ 0x00EE#16) ∨
    ((w.toNat / 4096 = 5 ∨ w.toNat / 4096 = 9) ∧ w.toNat % 16 ≠ 0) ∨
    (w.toNat / 4096 = 8 ∧ w.toNat % 16 ∈ [0x8, 0x9, 0xA, 0xB, 0xC, 0xD, 0xF]) ∨
    (w.toNat / 4096 = 0xE ∧ w.toNat % 256 ≠ 0x9E ∧ w.toNat % 256 ≠ 0xA1) ∨
    (w.toNat / 4096 = 0xF ∧ w.toNat % 256 ∉ [0x07, 0x0A, 0x15, 0x18, 0x1E, 0x29, 0x33, 0x55, 0x65])

/-- A few words written out: the two encodings the source gives (0x60FF, 0x2200) and one of each other shape. -/
def Obligations.SampleWordsDecode : Prop :=
  decode 0x60FF#16 = .instr (.ldImm 0#4 0xFF#8) ∧ decode 0x2200#16 = .instr (.call 0x200#12) ∧
  decode 0x00EE#16 = .instr .ret ∧ decode 0x8126#16 = .instr (.shr 1#4 2#4) ∧
  decode 0xD125#16 = .instr (.drw 1#4 2#4 5#4) ∧ decode 0xF365#16 = .instr (.ldVxMem 3#4) ∧
  decode 0xE2A1#16 = .instr (.sknp 2#4) ∧ decode 0x9AB0#16 = .instr (.sneReg 0xA#4 0xB#4)

/-! Control transfer and skips. -/

/-- JP sets `pc` to NNN and changes nothing else (41_control_flow.md R102). -/
def Obligations.JumpSetsThePc : Prop :=
  ∀ (nnn : Addr12) (s : State), ∃ t, exec (.jp nnn) s = .next t ∧
    t.pc.toNat = nnn.toNat ∧ FrameOutside (fun p => p = .pc) s t

/-- BNNN adds V0 to NNN exactly, not reduced modulo 4096 (41_control_flow.md section 2, decided by D35). It follows the
pseudocode there against the example beside it, whose 0x1100 for 0xBF01 no such sum gives (log entry 12). -/
def Obligations.RelativeJumpAddsV0 : Prop :=
  ∀ (nnn : Addr12) (s : State), ∃ t, exec (.jpV0 nnn) s = .next t ∧
    t.pc.toNat = nnn.toNat + (s.getV 0#4).toNat ∧ FrameOutside (fun p => p = .pc) s t

/-- CALL with a free stack entry pushes pc + 2 and jumps (41_control_flow.md section 2; where the stack is full, D5). -/
def Obligations.CallPushesTheReturnAddress : Prop :=
  ∀ (nnn : Addr12) (s : State), s.Inv → s.sp ≠ s.params.stackDepth →
    ∃ t, exec (.call nnn) s = .next t ∧ t.stackAt s.sp = s.pc + 2#16 ∧ t.sp = s.sp + 1 ∧ t.pc.toNat = nnn.toNat ∧
      FrameOutside (fun p => p = .pc ∨ p = .sp ∨ p = .stack s.sp) s t

/-- RET with an entry in use pops into `pc`; the entry keeps its value (41_control_flow.md section 2, D5, D20). -/
def Obligations.ReturnPopsTheTopEntry : Prop :=
  ∀ s : State, s.sp ≠ 0 → ∃ t, exec .ret s = .next t ∧ t.pc = s.stackAt (s.sp - 1) ∧ t.sp = s.sp - 1 ∧
    FrameOutside (fun p => p = .pc ∨ p = .sp) s t

/-- A call followed by a return comes back after the call with the stack pointer as it was; only the freed stack
entry and `pc` differ (41_control_flow.md section 2). -/
def Obligations.ReturnUndoesCall : Prop :=
  ∀ (nnn : Addr12) (s : State), s.Inv → s.sp ≠ s.params.stackDepth →
    ∃ t u, exec (.call nnn) s = .next t ∧ exec .ret t = .next u ∧ u.pc = s.pc + 2#16 ∧
      FrameOutside (fun p => p = .pc ∨ p = .stack s.sp) s u

/-- The skips on an immediate add 4 or 2 to `pc` and change nothing else (41_control_flow.md section 3). -/
def Obligations.SkipsOnImmediate : Prop :=
  ∀ (x : Nibble) (nn : Byte) (s : State),
    (∃ t, exec (.seImm x nn) s = .next t ∧ t.pc = s.pc + (if s.getV x = nn then 4#16 else 2#16) ∧
      FrameOutside (fun p => p = .pc) s t) ∧
    (∃ t, exec (.sneImm x nn) s = .next t ∧ t.pc = s.pc + (if s.getV x = nn then 2#16 else 4#16) ∧
      FrameOutside (fun p => p = .pc) s t)

/-- The skips on two registers add 4 or 2 to `pc` and change nothing else (41_control_flow.md R106, R107). -/
def Obligations.SkipsOnRegisters : Prop :=
  ∀ (x y : Nibble) (s : State),
    (∃ t, exec (.seReg x y) s = .next t ∧ t.pc = s.pc + (if s.getV x = s.getV y then 4#16 else 2#16) ∧
      FrameOutside (fun p => p = .pc) s t) ∧
    (∃ t, exec (.sneReg x y) s = .next t ∧ t.pc = s.pc + (if s.getV x = s.getV y then 2#16 else 4#16) ∧
      FrameOutside (fun p => p = .pc) s t)

/-! Register loads and the ALU. -/

/-- 6XNN loads NN into V[X] and 8XY0 copies V[Y] to V[X] (42_alu.md R121, R123). -/
def Obligations.RegisterLoads : Prop :=
  ∀ (x y : Nibble) (nn : Byte) (s : State),
    (∃ t, exec (.ldImm x nn) s = .next t ∧ t.getV x = nn ∧ t.pc = s.pc + 2#16 ∧
      FrameOutside (fun p => p = .v x ∨ p = .pc) s t) ∧
    (∃ t, exec (.ldReg x y) s = .next t ∧ t.getV x = s.getV y ∧ t.pc = s.pc + 2#16 ∧
      FrameOutside (fun p => p = .v x ∨ p = .pc) s t)

/-- 7XNN adds NN modulo 256 and writes no flag (42_alu.md R122). -/
def Obligations.AddImmediateWraps : Prop :=
  ∀ (x : Nibble) (nn : Byte) (s : State), ∃ t, exec (.addImm x nn) s = .next t ∧
    (t.getV x).toNat = ((s.getV x).toNat + nn.toNat) % 256 ∧ t.pc = s.pc + 2#16 ∧
    FrameOutside (fun p => p = .v x ∨ p = .pc) s t

/-- OR, AND and XOR work bit by bit; VF is not written unless it is V[X] (42_alu.md section 3, decided by D7). -/
def Obligations.LogicWorksBitwise : Prop :=
  ∀ (x y : Nibble) (s : State),
    (∃ t, exec (.orReg x y) s = .next t ∧
      (∀ k, (t.getV x).getLsbD k = ((s.getV x).getLsbD k || (s.getV y).getLsbD k)) ∧ t.pc = s.pc + 2#16 ∧
      FrameOutside (fun p => p = .v x ∨ p = .pc) s t) ∧
    (∃ t, exec (.andReg x y) s = .next t ∧
      (∀ k, (t.getV x).getLsbD k = ((s.getV x).getLsbD k && (s.getV y).getLsbD k)) ∧ t.pc = s.pc + 2#16 ∧
      FrameOutside (fun p => p = .v x ∨ p = .pc) s t) ∧
    (∃ t, exec (.xorReg x y) s = .next t ∧
      (∀ k, (t.getV x).getLsbD k = ((s.getV x).getLsbD k ^^ (s.getV y).getLsbD k)) ∧ t.pc = s.pc + 2#16 ∧
      FrameOutside (fun p => p = .v x ∨ p = .pc) s t)

/-- 8XY4: the sum modulo 256, then VF = 1 iff it exceeded 255; for X = F the flag is what VF holds
(42_alu.md sections 1 and 3; the order is decided by D6). -/
def Obligations.AddSetsCarry : Prop :=
  ∀ (x y : Nibble) (s : State), ∃ t, exec (.addReg x y) s = .next t ∧
    t.getV 0xF#4 = (if 255 < (s.getV x).toNat + (s.getV y).toNat then 1#8 else 0#8) ∧
    (x ≠ 0xF#4 → (t.getV x).toNat = ((s.getV x).toNat + (s.getV y).toNat) % 256) ∧ t.pc = s.pc + 2#16 ∧
    FrameOutside (fun p => p = .v x ∨ p = .v 0xF#4 ∨ p = .pc) s t

/-- 8XY5 and 8XY7: the difference modulo 256, then VF = 1 iff it wrapped; for X = F the flag is what VF holds
(42_alu.md sections 1 and 3; the order is decided by D6). -/
def Obligations.SubtractSetsWrap : Prop :=
  ∀ (x y : Nibble) (s : State),
    (∃ t, exec (.sub x y) s = .next t ∧
      t.getV 0xF#4 = (if (s.getV x).toNat < (s.getV y).toNat then 1#8 else 0#8) ∧
      (x ≠ 0xF#4 → ((t.getV x).toNat : Int) = ((s.getV x).toNat - (s.getV y).toNat : Int) % 256) ∧ t.pc = s.pc + 2#16 ∧
      FrameOutside (fun p => p = .v x ∨ p = .v 0xF#4 ∨ p = .pc) s t) ∧
    (∃ t, exec (.subn x y) s = .next t ∧
      t.getV 0xF#4 = (if (s.getV y).toNat < (s.getV x).toNat then 1#8 else 0#8) ∧
      (x ≠ 0xF#4 → ((t.getV x).toNat : Int) = ((s.getV y).toNat - (s.getV x).toNat : Int) % 256) ∧ t.pc = s.pc + 2#16 ∧
      FrameOutside (fun p => p = .v x ∨ p = .v 0xF#4 ∨ p = .pc) s t)

/-- 8XY6 and 8XYE: V[X] halved or doubled modulo 256, then VF = the bit shifted out, whatever Y is; for X = F the
flag is what VF holds (42_alu.md sections 1 and 3; decided by D6, D8). -/
def Obligations.ShiftsSetTheBitShiftedOut : Prop :=
  ∀ (x y : Nibble) (s : State),
    (∃ t, exec (.shr x y) s = .next t ∧ (t.getV 0xF#4).toNat = (s.getV x).toNat % 2 ∧
      (x ≠ 0xF#4 → (t.getV x).toNat = (s.getV x).toNat / 2) ∧ t.pc = s.pc + 2#16 ∧
      FrameOutside (fun p => p = .v x ∨ p = .v 0xF#4 ∨ p = .pc) s t) ∧
    (∃ t, exec (.shl x y) s = .next t ∧ (t.getV 0xF#4).toNat = (s.getV x).toNat / 128 ∧
      (x ≠ 0xF#4 → (t.getV x).toNat = (s.getV x).toNat * 2 % 256) ∧ t.pc = s.pc + 2#16 ∧
      FrameOutside (fun p => p = .v x ∨ p = .v 0xF#4 ∨ p = .pc) s t)

/-- CXNN: V[X] is the drawn byte masked by NN, so it has no bit outside NN, whatever was drawn (42_alu.md section 4,
decided by D28). The counter `draws` is the model's own (log entry 5). -/
def Obligations.RandomLoadIsMasked : Prop :=
  ∀ (x : Nibble) (nn : Byte) (s : State), ∃ t, exec (.rnd x nn) s = .next t ∧
    t.getV x = Config.randomByte s.draws &&& nn ∧ (∀ k, nn.getLsbD k = false → (t.getV x).getLsbD k = false) ∧
    t.draws = s.draws + 1 ∧ t.pc = s.pc + 2#16 ∧ FrameOutside (fun p => p = .v x ∨ p = .draws ∨ p = .pc) s t

/-- Which instructions own which state: a register changes only by an instruction that names it as destination, VF
also by the flag writers of 10_state.md R21; `I`, the stack, the timers, the key latch, the frame buffer and memory change
only by the instructions the spec names; keys, the output, the filter and the parameters by none
(10_state.md sections 1 to 6; memory by 20_memory.md section 3). `latchedKey` is kept by the pseudocode of
45_keyboard_timers.md section 3, the default; FX0A may change it under the other reading, of the words of 10_state.md
section 5 (a parameter, the model's choice, log entry 15);
`params` and `draws` are the model's own fields (log entries 1, 5 and 15). -/
def Obligations.StateChangesOnlyByItsInstructions : Prop :=
  ∀ (i : Instr) (s t : State), exec i s = .next t →
    (∀ r, t.getV r ≠ s.getV r → namesRegister i r ∨ (r = 0xF#4 ∧ writesFlag i)) ∧
    (t.i ≠ s.i → (∃ nnn, i = .ldI nnn) ∨ (∃ x, i = .addI x) ∨ ∃ x, i = .ldF x) ∧
    (t.stack ≠ s.stack → ∃ nnn, i = .call nnn) ∧ (t.sp ≠ s.sp → i = .ret ∨ ∃ nnn, i = .call nnn) ∧
    (t.dt ≠ s.dt → ∃ x, i = .ldDTVx x) ∧ (t.st ≠ s.st → ∃ x, i = .ldSTVx x) ∧
    (t.waiting ≠ s.waiting ∨ t.received ≠ s.received → ∃ x, i = .ldVxK x) ∧
    (t.latchedKey ≠ s.latchedKey → s.params.latch = .written ∧ ∃ x, i = .ldVxK x) ∧
    (t.fb ≠ s.fb ∨ t.fbDirty ≠ s.fbDirty → i = .cls ∨ ∃ x y n, i = .drw x y n) ∧
    (t.mem ≠ s.mem → (∃ x, i = .ldB x) ∨ ∃ x, i = .ldMemVx x) ∧
    (t.draws ≠ s.draws → (∃ x nn, i = .rnd x nn) ∨ (s.params.latch = .written ∧ ∃ x, i = .ldVxK x)) ∧ t.keys = s.keys ∧ t.out = s.out ∧ t.outDirty = s.outDirty ∧
    t.filterOn = s.filterOn ∧ t.params = s.params

/-! Index register and memory. -/

/-- ANNN loads NNN into `I` (43_index_memory.md R140). -/
def Obligations.LoadIndex : Prop :=
  ∀ (nnn : Addr12) (s : State), ∃ t, exec (.ldI nnn) s = .next t ∧ t.i.toNat = nnn.toNat ∧ t.pc = s.pc + 2#16 ∧
    FrameOutside (fun p => p = .i ∨ p = .pc) s t

/-- FX1E: the exact sum, VF = 1 iff it exceeds 0xFFF; past 0xFFFF a fault and nothing else
(43_index_memory.md section 2, decided by D6, D13, D19). -/
def Obligations.AddToIndex : Prop :=
  ∀ (x : Nibble) (s : State),
    (s.i.toNat + (s.getV x).toNat ≤ 0xFFFF → ∃ t, exec (.addI x) s = .next t ∧
      t.i.toNat = s.i.toNat + (s.getV x).toNat ∧
      t.getV 0xF#4 = (if 0xFFF < s.i.toNat + (s.getV x).toNat then 1#8 else 0#8) ∧ t.pc = s.pc + 2#16 ∧
      FrameOutside (fun p => p = .i ∨ p = .v 0xF#4 ∨ p = .pc) s t) ∧
    (0xFFFF < s.i.toNat + (s.getV x).toNat →
      exec (.addI x) s = .next { s with fault := some ⟨.indexOverflow, s.pc, some (encode (.addI x)), none⟩ })

/-- FX29: `I` is five times V[X], without a mask (43_index_memory.md section 2, decided by D12). -/
def Obligations.GlyphAddress : Prop :=
  ∀ (x : Nibble) (s : State), ∃ t, exec (.ldF x) s = .next t ∧ t.i.toNat = 5 * (s.getV x).toNat ∧
    t.pc = s.pc + 2#16 ∧ FrameOutside (fun p => p = .i ∨ p = .pc) s t

/-- FX33 inside the memory: three decimal digits, hundreds first, that make up V[X] (43_index_memory.md section 3,
decided by D3, D14). -/
def Obligations.DecimalDigitsAreStored : Prop :=
  ∀ (x : Nibble) (s : State), Memory.wf s.mem → s.i.toNat + 2 < 0x1000 → ∃ t, exec (.ldB x) s = .next t ∧
    (s.getV x).toNat = 100 * (t.readByte s.i.toNat).toNat + 10 * (t.readByte (s.i.toNat + 1)).toNat +
      (t.readByte (s.i.toNat + 2)).toNat ∧
    (t.readByte s.i.toNat).toNat < 10 ∧ (t.readByte (s.i.toNat + 1)).toNat < 10 ∧ (t.readByte (s.i.toNat + 2)).toNat < 10 ∧
    t.pc = s.pc + 2#16 ∧
    FrameOutside (fun p => p = .pc ∨ ∃ a, p = .byte a ∧ s.i.toNat ≤ a ∧ a ≤ s.i.toNat + 2) s t

/-- FX55 inside the memory: V0 to VX at `I` on, `I` unchanged (43_index_memory.md section 3, decided by D3, D15). -/
def Obligations.RegistersAreStored : Prop :=
  ∀ (x : Nibble) (s : State), Memory.wf s.mem → s.i.toNat + x.toNat < 0x1000 → ∃ t, exec (.ldMemVx x) s = .next t ∧
    (∀ k : Nibble, k.toNat ≤ x.toNat → t.readByte (s.i.toNat + k.toNat) = s.getV k) ∧ t.pc = s.pc + 2#16 ∧
    FrameOutside (fun p => p = .pc ∨ ∃ a, p = .byte a ∧ s.i.toNat ≤ a ∧ a ≤ s.i.toNat + x.toNat) s t

/-- FX65 inside the memory: V0 to VX from `I` on, `I` unchanged (43_index_memory.md section 3, decided by D3, D15). -/
def Obligations.RegistersAreLoaded : Prop :=
  ∀ (x : Nibble) (s : State), s.i.toNat + x.toNat < 0x1000 → ∃ t, exec (.ldVxMem x) s = .next t ∧
    (∀ k : Nibble, k.toNat ≤ x.toNat → t.getV k = s.readByte (s.i.toNat + k.toNat)) ∧ t.pc = s.pc + 2#16 ∧
    FrameOutside (fun p => p = .pc ∨ ∃ k : Nibble, p = .v k ∧ k.toNat ≤ x.toNat) s t

/-- An access that reaches past 0xFFF, a call on a full stack and a return on an empty one are not performed at all:
only the fault record is written, for memory with the first address out of range (20_memory.md section 3,
60_exceptions.md section 1, decided by D3, D5, D19). The record's word is the instruction's encoding (log entry 3). -/
def Obligations.StackAndMemoryFaultsWriteOnlyTheRecord : Prop :=
  ∀ (x y n : Nibble) (s : State),
    (∀ nnn, s.sp = s.params.stackDepth →
      exec (.call nnn) s = .next { s with fault := some ⟨.stackOverflow, s.pc, some (encode (.call nnn)), none⟩ }) ∧
    (s.sp = 0 → exec .ret s = .next { s with fault := some ⟨.stackUnderflow, s.pc, some (encode .ret), none⟩ }) ∧
    (0x1000 ≤ s.i.toNat + 2 → exec (.ldB x) s = .next
      { s with fault := some ⟨.memoryBounds, s.pc, some (encode (.ldB x)), some (max s.i.toNat 0x1000)⟩ }) ∧
    (0x1000 ≤ s.i.toNat + x.toNat → exec (.ldMemVx x) s = .next
      { s with fault := some ⟨.memoryBounds, s.pc, some (encode (.ldMemVx x)), some (max s.i.toNat 0x1000)⟩ }) ∧
    (0x1000 ≤ s.i.toNat + x.toNat → exec (.ldVxMem x) s = .next
      { s with fault := some ⟨.memoryBounds, s.pc, some (encode (.ldVxMem x)), some (max s.i.toNat 0x1000)⟩ }) ∧
    (0 < n.toNat → 0x1000 ≤ s.i.toNat + n.toNat - 1 → exec (.drw x y n) s = .next
      { s with fault := some ⟨.memoryBounds, s.pc, some (encode (.drw x y n)), some (max s.i.toNat 0x1000)⟩ })

/-- Registers stored by FX55 come back by FX65 from any state with the same memory and index
(43_index_memory.md section 3). -/
def Obligations.LoadAfterStoreRestoresRegisters : Prop :=
  ∀ (x : Nibble) (s t t' : State), Memory.wf s.mem → s.i.toNat + x.toNat < 0x1000 → exec (.ldMemVx x) s = .next t →
    t'.mem = t.mem → t'.i = t.i →
    ∃ u, exec (.ldVxMem x) t' = .next u ∧ ∀ k : Nibble, k.toNat ≤ x.toNat → u.getV k = s.getV k

/-- The very next fetch reads the bytes a store left, where both, one or none of them were overwritten: by FX55 with
the registers, by FX33 with the digits (20_memory.md section 4, decided by D29). -/
def Obligations.StoresAreSeenByTheNextFetch : Prop :=
  ∀ (x : Nibble) (s t : State), Memory.wf s.mem →
    (s.i.toNat + x.toNat < 0x1000 → exec (.ldMemVx x) s = .next t →
      let byteAfter := fun a : Nat =>
        if s.i.toNat ≤ a ∧ a ≤ s.i.toNat + x.toNat then s.getV (BitVec.ofNat 4 (a - s.i.toNat)) else s.readByte a
      t.fetchedWord = byteAfter t.pc.toNat ++ byteAfter (t.pc.toNat + 1)) ∧
    (s.i.toNat + 2 < 0x1000 → exec (.ldB x) s = .next t →
      let byteAfter := fun a : Nat =>
        if a = s.i.toNat then BitVec.ofNat 8 ((s.getV x).toNat / 100)
        else if a = s.i.toNat + 1 then BitVec.ofNat 8 ((s.getV x).toNat / 10 % 10)
        else if a = s.i.toNat + 2 then BitVec.ofNat 8 ((s.getV x).toNat % 10)
        else s.readByte a
      t.fetchedWord = byteAfter t.pc.toNat ++ byteAfter (t.pc.toNat + 1))

/-! Display. -/

/-- 00E0 clears every pixel and marks the buffer dirty (44_display.md section 1, decided by D11). -/
def Obligations.ClearScreen : Prop :=
  ∀ s : State, ∃ t, exec .cls s = .next t ∧ (∀ x y, t.pixel x y = 0x00#8) ∧ t.fbDirty = true ∧ t.pc = s.pc + 2#16 ∧
    FrameOutside (fun p => p = .pc ∨ p = .fbDirty ∨ ∃ x y, p = .pixel x y) s t

/-- DXYN toggles exactly the pixels in the buffer that a set bit of the sprite lands on, marks the buffer dirty, and
leaves the rest (44_display.md section 1, partly decided by D3, D10, D11). A sprite of no rows completes for any `I`. -/
def Obligations.DrawTogglesTheSprite : Prop :=
  ∀ (x y n : Nibble) (s : State), s.Inv → (n.toNat = 0 ∨ s.i.toNat + n.toNat - 1 < 0x1000) →
    ∃ t, exec (.drw x y n) s = .next t ∧
      (∀ px py, px < s.params.fbW → py < s.params.fbH →
        (s.spriteCovers (s.getV x) (s.getV y) n.toNat px py → t.pixel px py = s.pixel px py ^^^ 0xFF#8) ∧
        (¬ s.spriteCovers (s.getV x) (s.getV y) n.toNat px py → t.pixel px py = s.pixel px py)) ∧
      t.fbDirty = true ∧ t.pc = s.pc + 2#16 ∧
      FrameOutside (fun p => p = .pc ∨ p = .v 0xF#4 ∨ p = .fbDirty ∨ ∃ px py, p = .pixel px py) s t

/-- DXYN sets VF to 1 iff a covered pixel of the buffer was 0x00, else to 0 (44_display.md section 1: the reading of
90_conflicts.md C4, decided by D9 and D32, which is the default parameter, log entry 7). -/
def Obligations.DrawFlagIsTheCollision : Prop :=
  ∀ (x y n : Nibble) (s : State), s.Inv → s.params.collision = .unsetToSet →
    (n.toNat = 0 ∨ s.i.toNat + n.toNat - 1 < 0x1000) →
    ∃ t, exec (.drw x y n) s = .next t ∧
      ((∃ px py, px < s.params.fbW ∧ py < s.params.fbH ∧ s.spriteCovers (s.getV x) (s.getV y) n.toNat px py ∧
          s.pixel px py = 0x00#8) → t.getV 0xF#4 = 1#8) ∧
      (¬(∃ px py, px < s.params.fbW ∧ py < s.params.fbH ∧ s.spriteCovers (s.getV x) (s.getV y) n.toNat px py ∧
          s.pixel px py = 0x00#8) → t.getV 0xF#4 = 0#8)

/-- Drawing the same sprite twice restores every pixel (95_test_vectors.md L1.3, its restore half), where VF is no
coordinate. -/
def Obligations.DrawingTwiceRestoresTheFrame : Prop :=
  ∀ (x y n : Nibble) (s : State), s.Inv → x ≠ 0xF#4 → y ≠ 0xF#4 → (n.toNat = 0 ∨ s.i.toNat + n.toNat - 1 < 0x1000) →
    ∃ t u, exec (.drw x y n) s = .next t ∧ exec (.drw x y n) t = .next u ∧
      ∀ px py, px < s.params.fbW → py < s.params.fbH → u.pixel px py = s.pixel px py

/-! Keys and timers. -/

/-- EX9E and EXA1 skip on the key V[X] names; above 15 they fault and write nothing else
(45_keyboard_timers.md section 1, decided by D16, D19). -/
def Obligations.KeySkips : Prop :=
  ∀ (x k : Nibble) (s : State),
    ((s.getV x).toNat = k.toNat →
      (∃ t, exec (.skp x) s = .next t ∧ t.pc = s.pc + (if s.keyDown k then 4#16 else 2#16) ∧
        FrameOutside (fun p => p = .pc) s t) ∧
      ∃ t, exec (.sknp x) s = .next t ∧ t.pc = s.pc + (if s.keyDown k then 2#16 else 4#16) ∧
        FrameOutside (fun p => p = .pc) s t) ∧
    (15 < (s.getV x).toNat →
      exec (.skp x) s = .next
        { s with fault := some ⟨.keyIndex, s.pc, some (encode (.skp x)), some (s.getV x).toNat⟩ } ∧
      exec (.sknp x) s = .next
        { s with fault := some ⟨.keyIndex, s.pc, some (encode (.sknp x)), some (s.getV x).toNat⟩ })

/-- FX07, FX15 and FX18 move a byte between V[X] and a timer (45_keyboard_timers.md R192, R194, R195). -/
def Obligations.TimerTransfers : Prop :=
  ∀ (x : Nibble) (s : State),
    (∃ t, exec (.ldVxDT x) s = .next t ∧ t.getV x = s.dt ∧ t.pc = s.pc + 2#16 ∧
      FrameOutside (fun p => p = .v x ∨ p = .pc) s t) ∧
    (∃ t, exec (.ldDTVx x) s = .next t ∧ t.dt = s.getV x ∧ t.pc = s.pc + 2#16 ∧
      FrameOutside (fun p => p = .dt ∨ p = .pc) s t) ∧
    (∃ t, exec (.ldSTVx x) s = .next t ∧ t.st = s.getV x ∧ t.pc = s.pc + 2#16 ∧
      FrameOutside (fun p => p = .st ∨ p = .pc) s t)

/-- FX0A: it starts a wait, repeats while no key came, and completes with the captured key, and it keeps `latchedKey`
(45_keyboard_timers.md section 3); only a block built with the other reading, of 10_state.md section 5, may write it
where a wait starts or ends (a parameter, the model's choice, log entry 15). No key received yet, the key it held decides
nothing. -/
def Obligations.KeyWaitPolls : Prop :=
  ∀ (x : Nibble) (s : State),
    let latch := fun p : Part => s.params.latch = .written ∧ (p = .latchedKey ∨ p = .draws)
    (s.waiting = false → ∃ t, exec (.ldVxK x) s = .next t ∧ t.waiting = true ∧
      FrameOutside (fun p => p = .waiting ∨ latch p) s t) ∧
    (s.waiting = true → s.received = false → exec (.ldVxK x) s = .next s) ∧
    (s.waiting = true → s.received = true → ∃ t, exec (.ldVxK x) s = .next t ∧
      (t.getV x).toNat = s.latchedKey.toNat ∧ t.waiting = false ∧ t.received = false ∧ t.pc = s.pc + 2#16 ∧
      FrameOutside (fun p => p = .v x ∨ p = .waiting ∨ p = .received ∨ p = .pc ∨ latch p) s t) ∧
    (s.received = false → ∀ k, ∃ t u, exec (.ldVxK x) s = .next t ∧
      exec (.ldVxK x) { s with latchedKey := k } = .next u ∧ FrameOutside (fun p => p = .latchedKey) t u)

/-- A wait that has started completes by the step after a press, with that key; an earlier press does not count
(45_keyboard_timers.md sections 3 and 4). -/
def Obligations.PressCompletesTheWait : Prop :=
  ∀ (x : Nibble) (k : Nat) (s : State), s.fault = none → s.waiting = false → k ≤ 15 →
    ∃ t p u, exec (.ldVxK x) s = .next t ∧ t.pc = s.pc ∧ t.pressKey k = .next p ∧ exec (.ldVxK x) p = .next u ∧
      (u.getV x).toNat = k ∧ u.pc = s.pc + 2#16 ∧ u.waiting = false ∧ u.received = false

/-- `press_key` and `release_key` on a live block, and their refusal above 15 (45_keyboard_timers.md section 4,
decided by D17, D33). -/
def Obligations.KeyEvents : Prop :=
  ∀ (k : Nibble) (n : Nat) (s : State),
    (s.fault = none → ∃ t, s.pressKey k.toNat = .next t ∧ t.keyDown k = true ∧
      (s.waiting = true → t.received = true ∧ t.latchedKey = k ∧
        FrameOutside (fun p => p = .key k ∨ p = .received ∨ p = .latchedKey) s t) ∧
      (s.waiting = false → FrameOutside (fun p => p = .key k) s t)) ∧
    (s.fault = none → ∃ t, s.releaseKey k.toNat = .next t ∧ t.keyDown k = false ∧
      FrameOutside (fun p => p = .key k) s t) ∧
    (15 < n → s.pressKey n = .refused .keyIdOutOfRange ∧ s.releaseKey n = .refused .keyIdOutOfRange)

/-- `tick` counts each timer down by 1, never below 0, and does nothing else (45_keyboard_timers.md section 5). -/
def Obligations.TickCountsDown : Prop :=
  ∀ s : State, s.fault = none → s.tick.dt.toNat = s.dt.toNat - 1 ∧ s.tick.st.toNat = s.st.toNat - 1 ∧
    FrameOutside (fun p => p = .dt ∨ p = .st) s s.tick

/-- No step reads the sound timer: two states that differ in ST alone step to states that differ at most in ST
(10_state.md section 4). -/
def Obligations.SoundTimerIsNeverRead : Prop :=
  ∀ (s t : State) (b : Byte), step s = .next t →
    ∃ u, step { s with st := b } = .next u ∧ { u with st := t.st } = t ∧ (u.st = b ∨ u.st = t.st)

/-! Frame-buffer controller and filter. -/

/-- `fb_write` on a live block: it writes one pixel of the buffer, and outside the buffer nothing at all
(44_display.md R171). -/
def Obligations.FrameWriteIsBounded : Prop :=
  ∀ (x y : Nat) (b : Byte) (s : State), s.Inv → s.fault = none →
    (x < s.params.fbW → y < s.params.fbH → (s.fbWrite x y b).pixel x y = b ∧
      (∀ px py, px < s.params.fbW → py < s.params.fbH → (px ≠ x ∨ py ≠ y) → (s.fbWrite x y b).pixel px py = s.pixel px py) ∧
      FrameOutside (fun p => ∃ px py, p = .pixel px py) s (s.fbWrite x y b)) ∧
    (s.params.fbW ≤ x ∨ s.params.fbH ≤ y → s.fbWrite x y b = s)

/-- Marking the frame buffer twice coalesces; consuming returns the flag and clears it, for the frame buffer
(44_display.md section 2) and for the output buffer (44_display.md section 3). -/
def Obligations.DirtyIsHandedOffOnce : Prop :=
  ∀ s : State, s.fault = none →
    s.fbMarkDirty.fbDirty = true ∧ s.fbMarkDirty.fbMarkDirty = s.fbMarkDirty ∧
    HostOp.fbConsumeDirty.reply s = .dirty s.fbDirty ∧ HostOp.outConsumeDirty.reply s = .dirty s.outDirty ∧
    s.fbConsumeDirty.fbDirty = false ∧ s.outConsumeDirty.outDirty = false ∧
    FrameOutside (fun p => p = .fbDirty) s s.fbMarkDirty ∧ FrameOutside (fun p => p = .fbDirty) s s.fbConsumeDirty ∧
    FrameOutside (fun p => p = .outDirty) s s.outConsumeDirty

/-- With the filter off a pass only broadcasts each pixel to its 2x2 block; it marks the output dirty and changes
nothing else (44_display.md section 3; the flag by D26). -/
def Obligations.FilterOffBroadcasts : Prop :=
  ∀ s : State, s.fault = none → s.params.RatioOk → s.filterOn = false →
    (∀ x y, x < s.params.outW → y < s.params.outH → s.filterPass.outPixel x y = s.pixel (x / 2) (y / 2)) ∧
    s.filterPass.outDirty = true ∧
    FrameOutside (fun p => p = .outDirty ∨ ∃ px py, p = .outPixel px py) s s.filterPass

/-- `toggle_filter` on a live block flips the filter and nothing else, the output included (44_display.md section 3,
D24). `fb_read` and `out_read` inside their buffer hand back the pixel and leave the state, faulted or not; outside they
are refused (44_display.md sections 2 and 3, 60_exceptions.md section 1, D31, D36). -/
def Obligations.ToggleAndReads : Prop :=
  ∀ (x y : Nat) (s : State),
    (s.fault = none → HostOp.toggleFilter.apply s = .next s.toggleFilter ∧ s.toggleFilter.filterOn = !s.filterOn ∧
      FrameOutside (fun p => p = .filterOn) s s.toggleFilter) ∧
    (x < s.params.fbW → y < s.params.fbH → (HostOp.fbRead x y).apply s = .next s ∧
      (HostOp.fbRead x y).reply s = .pixel (s.pixel x y)) ∧
    (s.params.fbW ≤ x ∨ s.params.fbH ≤ y → (HostOp.fbRead x y).apply s = .refused .fbReadOutOfRange) ∧
    (x < s.params.outW → y < s.params.outH → (HostOp.outRead x y).apply s = .next s ∧
      (HostOp.outRead x y).reply s = .pixel (s.outPixel x y)) ∧
    (s.params.outW ≤ x ∨ s.params.outH ≤ y → (HostOp.outRead x y).apply s = .refused .fbReadOutOfRange)

/-- With the filter on a pass writes the four corners of each block by the neighbour rule, clamped at the edges;
it marks the output dirty and changes nothing else (44_display.md section 3; all four corners by D25, the flag by D26). -/
def Obligations.FilterOnAppliesTheCornerRule : Prop :=
  ∀ (s : State) (x y : Nat), s.fault = none → s.params.RatioOk → s.filterOn = true →
    x < s.params.fbW → y < s.params.fbH →
    let c := s.pixel x y
    let top := if y = 0 then c else s.pixel x (y - 1)
    let left := if x = 0 then c else s.pixel (x - 1) y
    let right := if x + 1 = s.params.fbW then c else s.pixel (x + 1) y
    let bottom := if y + 1 = s.params.fbH then c else s.pixel x (y + 1)
    let t := s.filterPass
    t.outPixel (2 * x) (2 * y) = (if left = top ∧ left ≠ bottom ∧ top ≠ right then left else c) ∧
    t.outPixel (2 * x + 1) (2 * y) = (if top = right ∧ top ≠ left ∧ right ≠ bottom then right else c) ∧
    t.outPixel (2 * x) (2 * y + 1) = (if left = bottom ∧ left ≠ top ∧ bottom ≠ right then left else c) ∧
    t.outPixel (2 * x + 1) (2 * y + 1) = (if right = bottom ∧ right ≠ top ∧ bottom ≠ left then right else c) ∧
    t.outDirty = true ∧ FrameOutside (fun p => p = .outDirty ∨ ∃ px py, p = .outPixel px py) s t

/-- A uniform frame gives a uniform output, and every output cell is the value of some pixel of the frame, filter on
or off (44_display.md section 3). -/
def Obligations.FilterInventsNoValue : Prop :=
  ∀ s : State, s.fault = none → s.params.RatioOk →
    (∀ v, (∀ x y, x < s.params.fbW → y < s.params.fbH → s.pixel x y = v) →
      ∀ x y, x < s.params.outW → y < s.params.outH → s.filterPass.outPixel x y = v) ∧
    ∀ x y, x < s.params.outW → y < s.params.outH →
      ∃ px py, px < s.params.fbW ∧ py < s.params.fbH ∧ s.filterPass.outPixel x y = s.pixel px py

/-- A single pixel that differs from the rest, away from every edge, fills its own 2x2 block and spreads no further
(44_display.md section 3). -/
def Obligations.FilterKeepsASinglePixel : Prop :=
  ∀ (s : State) (x y : Nat) (v w : Byte), s.fault = none → s.params.RatioOk →
    0 < x → x + 1 < s.params.fbW → 0 < y → y + 1 < s.params.fbH → s.pixel x y = v →
    (∀ px py, px < s.params.fbW → py < s.params.fbH → (px ≠ x ∨ py ≠ y) → s.pixel px py = w) →
    ∀ cx cy, cx < s.params.outW → cy < s.params.outH →
      s.filterPass.outPixel cx cy = if cx / 2 = x ∧ cy / 2 = y then v else w

/-! Load and the agents. -/

/-- `load` before the first step puts the font at 0x000 and the program at 0x200 and changes nothing else; a program
over 3584 bytes writes nothing; a load after a step is refused, and so is a second load
(70_reset_and_hazards.md section 1, 60_exceptions.md section 1, D34). -/
def Obligations.LoadPlacesFontAndProgram : Prop :=
  ∀ (s : State) (bytes : List Byte),
    (s.fault = none → Memory.wf s.mem → s.params.FontOk → bytes.length ≤ 3584 → ∃ t, s.load bytes = .next t ∧
      (∀ j, j < 80 → t.readByte j = s.params.font.getD j 0#8) ∧
      (∀ j, j < bytes.length → t.readByte (0x200 + j) = bytes.getD j 0#8) ∧
      FrameOutside (fun p => ∃ a, p = .byte a ∧ (a < 80 ∨ 0x200 ≤ a ∧ a < 0x200 + bytes.length)) s t) ∧
    (3584 < bytes.length → s.load bytes = .refused .loadError) ∧
    (∀ e : Session, e.stopped = false → e.loaded = true ∨ e.started = true →
      e.perform (.load bytes) = .refused .loadAfterStart) ∧
    ∀ (e f : Session) (op : HostOp), e.perform op = .next f →
      (op = .step → f.started = true) ∧
      (op = .load bytes → f.loaded = true ∧ ∀ again, f.perform (.load again) = .refused .loadAfterStart)

/-- A state whose `pc` holds a jump to itself stays as it is at every step: the successful end of
70_reset_and_hazards.md section 4 (decided by D37), from any number of steps. That the jump can be fetched is the
model's addition to that definition (log entry 17). -/
def Obligations.SuccessfulEndIsStable : Prop :=
  ∀ (h : Addr12) (s : State) (n : Nat), s.SuccessfulEnd h → Sys2Proof.core.run n s = .next s

/-- The hand-off: after a turn of the execution agent that does not fault, with or without the tick that may follow
its step, a frame marked dirty is a pending notification and the flag is consumed; a filter turn without a notification
does nothing; one with it clears the slot, refreshes the output and notifies the presentation, whose poll answers true
once and clears its slot (60_exceptions.md section 4, decided by D26, D30). -/
def Obligations.HandOffReachesThePresentation : Prop :=
  ∀ e : Session, e.stopped = false → e.block.fault = none →
    (∀ ticks t, step e.block = .next t → t.fault = none → ∃ f, e.executionTurn ticks = .next f ∧
      f.n1 = (e.n1 || t.fbDirty) ∧ f.block = { (if ticks then t.tick else t) with fbDirty := false } ∧
      f.started = true ∧ f.stopped = false ∧ f.n2 = e.n2) ∧
    (e.n1 = false → e.filterTurn = e) ∧
    (e.n1 = true → e.filterTurn.n1 = false ∧ e.filterTurn.n2 = true ∧
      e.filterTurn.block = { e.block with out := e.block.filterPass.out, outDirty := false }) ∧
    e.presentTurn = (e.n2, { e with n2 := false }) ∧ e.presentTurn.2.presentTurn = (false, e.presentTurn.2)
end

