-- ==== Sys2Proof/Laws/Decode.lean ====
section
/-! SUPPORT. The fields of a word built from its parts, and a word from its fields, one lemma per layout (30_encoding.md R78). -/

namespace Sys2Proof

/-- An appended value as a number. -/
theorem toNat_append_add {m n : Nat} (a : BitVec m) (b : BitVec n) : (a ++ b).toNat = a.toNat * 2 ^ n + b.toNat := by
  rw [BitVec.toNat_append, ← Nat.shiftLeft_add_eq_or_of_lt b.isLt, Nat.shiftLeft_eq]

/-- A field as a number. -/
theorem toNat_field (w : Word) (k n : Nat) : (w.extractLsb' k n).toNat = w.toNat / 2 ^ k % 2 ^ n := by
  rw [BitVec.extractLsb'_toNat, Nat.shiftRight_eq_div_pow]

/-! The number of a word of each layout. -/

theorem toNat_addrWord (c : Nibble) (a : Addr12) : BitVec.toNat (w := 16) (c ++ a) = c.toNat * 4096 + a.toNat :=
  toNat_append_add c a

theorem toNat_byteWord (c x : Nibble) (b : Byte) :
    BitVec.toNat (w := 16) (c ++ x ++ b) = c.toNat * 4096 + x.toNat * 256 + b.toNat := by
  have h : BitVec.toNat (w := 16) (c ++ x ++ b) = _ := toNat_append_add (c ++ x) b
  rw [h, toNat_append_add c x]; omega

theorem toNat_nibbleWord (c x y n : Nibble) :
    BitVec.toNat (w := 16) (c ++ x ++ y ++ n) = c.toNat * 4096 + x.toNat * 256 + y.toNat * 16 + n.toNat := by
  have h : BitVec.toNat (w := 16) (c ++ x ++ y ++ n) = _ := toNat_append_add (c ++ x ++ y) n
  rw [h, toNat_append_add (c ++ x) y, toNat_append_add c x]; omega

/-! Layout A: class and address. -/

@[simp] theorem fieldClass_addrWord (c : Nibble) (a : Addr12) : fieldClass (c ++ a) = c := by
  apply BitVec.eq_of_toNat_eq; rw [fieldClass, toNat_field, toNat_addrWord]; omega

@[simp] theorem fieldNNN_addrWord (c : Nibble) (a : Addr12) : fieldNNN (c ++ a) = a := by
  apply BitVec.eq_of_toNat_eq; rw [fieldNNN, toNat_field, toNat_addrWord]; omega

/-! Layouts XB and XS: class, register, byte. -/

@[simp] theorem fieldClass_byteWord (c x : Nibble) (b : Byte) : fieldClass (c ++ x ++ b) = c := by
  apply BitVec.eq_of_toNat_eq; rw [fieldClass, toNat_field, toNat_byteWord]; omega

@[simp] theorem fieldX_byteWord (c x : Nibble) (b : Byte) : fieldX (c ++ x ++ b) = x := by
  apply BitVec.eq_of_toNat_eq; rw [fieldX, toNat_field, toNat_byteWord]; omega

@[simp] theorem fieldNN_byteWord (c x : Nibble) (b : Byte) : fieldNN (c ++ x ++ b) = b := by
  apply BitVec.eq_of_toNat_eq; rw [fieldNN, toNat_field, toNat_byteWord]; omega

@[simp] theorem fieldY_byteWord (c x : Nibble) (b : Byte) : fieldY (c ++ x ++ b) = b.extractLsb' 4 4 := by
  apply BitVec.eq_of_toNat_eq
  rw [fieldY, toNat_field, toNat_byteWord, BitVec.extractLsb'_toNat, Nat.shiftRight_eq_div_pow]; omega

@[simp] theorem fieldN_byteWord (c x : Nibble) (b : Byte) : fieldN (c ++ x ++ b) = b.extractLsb' 0 4 := by
  apply BitVec.eq_of_toNat_eq
  rw [fieldN, toNat_field, toNat_byteWord, BitVec.extractLsb'_toNat, Nat.shiftRight_eq_div_pow]; omega

/-! Layouts XY and XYN: class, two registers, nibble. -/

@[simp] theorem fieldClass_nibbleWord (c x y n : Nibble) : fieldClass (c ++ x ++ y ++ n) = c := by
  apply BitVec.eq_of_toNat_eq; rw [fieldClass, toNat_field, toNat_nibbleWord]; omega

@[simp] theorem fieldX_nibbleWord (c x y n : Nibble) : fieldX (c ++ x ++ y ++ n) = x := by
  apply BitVec.eq_of_toNat_eq; rw [fieldX, toNat_field, toNat_nibbleWord]; omega

@[simp] theorem fieldY_nibbleWord (c x y n : Nibble) : fieldY (c ++ x ++ y ++ n) = y := by
  apply BitVec.eq_of_toNat_eq; rw [fieldY, toNat_field, toNat_nibbleWord]; omega

@[simp] theorem fieldN_nibbleWord (c x y n : Nibble) : fieldN (c ++ x ++ y ++ n) = n := by
  apply BitVec.eq_of_toNat_eq; rw [fieldN, toNat_field, toNat_nibbleWord]; omega

/-! A word from its fields. -/

theorem word_of_addr_fields (w : Word) : (fieldClass w ++ fieldNNN w : Word) = w := by
  apply BitVec.eq_of_toNat_eq
  rw [toNat_addrWord, fieldClass, fieldNNN, toNat_field, toNat_field]; omega

theorem word_of_byte_fields (w : Word) : (fieldClass w ++ fieldX w ++ fieldNN w : Word) = w := by
  apply BitVec.eq_of_toNat_eq
  rw [toNat_byteWord, fieldClass, fieldX, fieldNN, toNat_field, toNat_field, toNat_field]; omega

theorem word_of_nibble_fields (w : Word) : (fieldClass w ++ fieldX w ++ fieldY w ++ fieldN w : Word) = w := by
  apply BitVec.eq_of_toNat_eq
  rw [toNat_nibbleWord, fieldClass, fieldX, fieldY, fieldN, toNat_field, toNat_field, toNat_field, toNat_field]; omega

/-- Two words with the same four nibbles are the same word. -/
theorem word_eq_iff (w u : Word) : w = u ↔
    fieldClass w = fieldClass u ∧ fieldX w = fieldX u ∧ fieldY w = fieldY u ∧ fieldN w = fieldN u := by
  constructor
  · rintro rfl; simp
  · rintro ⟨h1, h2, h3, h4⟩
    rw [← word_of_nibble_fields w, ← word_of_nibble_fields u, h1, h2, h3, h4]

/-! Masking works field by field. -/

theorem fieldClass_and (w m : Word) : fieldClass (w &&& m) = fieldClass w &&& fieldClass m := BitVec.extractLsb'_and
theorem fieldX_and (w m : Word) : fieldX (w &&& m) = fieldX w &&& fieldX m := BitVec.extractLsb'_and
theorem fieldY_and (w m : Word) : fieldY (w &&& m) = fieldY w &&& fieldY m := BitVec.extractLsb'_and
theorem fieldN_and (w m : Word) : fieldN (w &&& m) = fieldN w &&& fieldN m := BitVec.extractLsb'_and

/-- A word matches a row when each of its nibbles does. -/
theorem matchesWord_iff (r : OpcodeRow) (w : Word) : r.matchesWord w = true ↔
    (fieldClass w &&& fieldClass r.mask = fieldClass r.matchBits ∧ fieldX w &&& fieldX r.mask = fieldX r.matchBits) ∧
    (fieldY w &&& fieldY r.mask = fieldY r.matchBits ∧ fieldN w &&& fieldN r.mask = fieldN r.matchBits) := by
  simp only [OpcodeRow.matchesWord, beq_iff_eq, word_eq_iff, fieldClass_and, fieldX_and, fieldY_and, fieldN_and, and_assoc]

/-- The byte NN is the two nibbles Y and N. -/
theorem fieldNN_eq (w : Word) : fieldNN w = (fieldY w ++ fieldN w : Byte) := by
  apply BitVec.eq_of_toNat_eq
  have h : BitVec.toNat (w := 8) (fieldY w ++ fieldN w) = _ := toNat_append_add _ _
  rw [h, fieldNN, fieldY, fieldN, toNat_field, toNat_field, toNat_field]; omega

/-- The two bytes of a word make the word (20_memory.md R54). -/
@[simp] theorem wordOfBytes_bytesOfWord (w : Word) : wordOfBytes (bytesOfWord w).1 (bytesOfWord w).2 = w := by
  apply BitVec.eq_of_toNat_eq
  have h : BitVec.toNat (w := 16) ((bytesOfWord w).1 ++ (bytesOfWord w).2) = _ := toNat_append_add _ _
  rw [wordOfBytes, h, bytesOfWord, toNat_field, toNat_field]; omega

end Sys2Proof
end

