-- ==== Sys2Proof/Laws/Sparse.lean ====
section
/-! SUPPORT. The laws of sparse arrays: read after write, the canonical form is kept, equal arrays are equal lists. -/

namespace Sys2Proof.Machine

variable {α : Type}

/-- The part of the canonical form that the read-after-write law needs: keys strictly rising. -/
abbrev SparseSorted (m : List (Nat × α)) : Prop := List.Pairwise (fun a b => a.1 < b.1) m

@[simp] theorem sparseGet_nil (d : α) (k : Nat) : sparseGet d [] k = d := rfl

theorem sparseGet_below (d : α) (m : List (Nat × α)) (k : Nat) (h : ∀ e ∈ m, k < e.1) : sparseGet d m k = d := by
  cases m with
  | nil => rfl
  | cons e m => simp [sparseGet, h e (by simp)]

theorem sparseGet_cons [DecidableEq α] (d : α) (m : List (Nat × α)) (k : Nat) (w : α) (hm : ∀ e ∈ m, k < e.1) (j : Nat) :
    sparseGet d (sparseCons d k w m) j = if j = k then w else sparseGet d m j := by
  unfold sparseCons
  split
  · split
    · subst_vars; exact sparseGet_below _ m _ hm
    · rfl
  · rename_i hw
    rcases Nat.lt_trichotomy j k with h | h | h
    · rw [sparseGet_below d m j (fun e he => Nat.lt_trans h (hm e he))]
      simp [sparseGet, h, Nat.ne_of_lt h]
    · simp [sparseGet, h]
    · simp [sparseGet, Nat.lt_asymm h, Nat.ne_of_lt h, Nat.ne_of_gt h]

/-- Reading after a write: the value written at its key, the old value everywhere else. -/
theorem sparseGet_set [DecidableEq α] (d : α) (m : List (Nat × α)) (hm : SparseSorted m) (k : Nat) (w : α) (j : Nat) :
    sparseGet d (sparseSet d m k w) j = if j = k then w else sparseGet d m j := by
  induction m with
  | nil => exact sparseGet_cons d [] k w (by simp) j
  | cons e m ih =>
    obtain ⟨a, u⟩ := e
    obtain ⟨ha, hm⟩ := List.pairwise_cons.1 hm
    simp only [sparseSet]
    split
    · rename_i hk
      apply sparseGet_cons
      intro e he
      rcases List.mem_cons.1 he with rfl | he
      · exact hk
      · exact Nat.lt_trans hk (ha e he)
    · split
      · subst_vars
        rw [sparseGet_cons d m _ w ha]
        split
        · rfl
        · rename_i hj
          rcases Nat.lt_or_gt_of_ne hj with h | h
          · rw [sparseGet_below d m j (fun e he => Nat.lt_trans h (ha e he))]; simp [sparseGet, h]
          · simp [sparseGet, Nat.lt_asymm h, Nat.ne_of_lt h]
      · rename_i h1 h2
        simp only [sparseGet, ih hm]
        split
        · rw [if_neg (by omega)]
        · split
          · rw [if_neg (by omega)]
          · rfl

theorem mem_sparseCons [DecidableEq α] {d : α} {m : List (Nat × α)} {k : Nat} {w : α} {e : Nat × α}
    (h : e ∈ sparseCons d k w m) : (e = (k, w) ∧ w ≠ d) ∨ e ∈ m := by
  unfold sparseCons at h
  split at h
  · exact .inr h
  · rename_i hw; exact (List.mem_cons.1 h).imp (fun h => ⟨h, hw⟩) id

theorem mem_sparseSet [DecidableEq α] {d : α} {m : List (Nat × α)} {k : Nat} {w : α} {e : Nat × α}
    (h : e ∈ sparseSet d m k w) : (e = (k, w) ∧ w ≠ d) ∨ e ∈ m := by
  induction m with
  | nil => exact mem_sparseCons h
  | cons b m ih =>
    simp only [sparseSet] at h
    split at h
    · exact mem_sparseCons h
    · split at h
      · exact (mem_sparseCons h).imp id (List.mem_cons_of_mem _)
      · rcases List.mem_cons.1 h with rfl | h
        · exact .inr (by simp)
        · exact (ih h).imp id (List.mem_cons_of_mem _)

theorem sparseCons_sorted [DecidableEq α] {d : α} {m : List (Nat × α)} {k : Nat} {w : α} (hm : SparseSorted m)
    (hk : ∀ e ∈ m, k < e.1) : SparseSorted (sparseCons d k w m) := by
  unfold sparseCons
  split
  · exact hm
  · exact List.pairwise_cons.2 ⟨hk, hm⟩

theorem sparseSet_sorted [DecidableEq α] (d : α) (m : List (Nat × α)) (hm : SparseSorted m) (k : Nat) (w : α) :
    SparseSorted (sparseSet d m k w) := by
  induction m with
  | nil => exact sparseCons_sorted List.Pairwise.nil (by simp)
  | cons e m ih =>
    obtain ⟨ha, hm'⟩ := List.pairwise_cons.1 hm
    simp only [sparseSet]
    split
    · rename_i hk
      refine sparseCons_sorted hm fun b hb => ?_
      rcases List.mem_cons.1 hb with rfl | hb
      · exact hk
      · exact Nat.lt_trans hk (ha b hb)
    · split
      · subst_vars; exact sparseCons_sorted hm' ha
      · refine List.pairwise_cons.2 ⟨fun b hb => ?_, ih hm'⟩
        rcases mem_sparseSet hb with ⟨rfl, -⟩ | hb
        · show e.1 < k; omega
        · exact ha b hb

/-- A write inside the array keeps the canonical form. -/
theorem sparseSet_wf [DecidableEq α] {d : α} {n : Nat} {m : List (Nat × α)} (hm : SparseWf d n m) {k : Nat} (hk : k < n)
    (w : α) : SparseWf d n (sparseSet d m k w) := by
  refine ⟨sparseSet_sorted d m hm.1 k w, fun e he => ?_⟩
  rcases mem_sparseSet he with ⟨rfl, hw⟩ | he
  · exact ⟨hk, hw⟩
  · exact hm.2 e he

theorem sparseWf_nil (d : α) (n : Nat) : SparseWf d n [] := ⟨List.Pairwise.nil, by simp⟩

/-- Reading outside a canonical array gives the fill value. -/
theorem sparseGet_outside {d : α} {n : Nat} {m : List (Nat × α)} (hm : SparseWf d n m) {k : Nat} (hk : n ≤ k) :
    sparseGet d m k = d := by
  obtain ⟨-, h⟩ := hm
  induction m with
  | nil => rfl
  | cons e m ih =>
    have he := (h e (by simp)).1
    simp only [sparseGet]
    rw [if_neg (by omega), if_neg (by omega)]
    exact ih fun b hb => h b (List.mem_cons_of_mem _ hb)

/-- Equal canonical arrays are equal lists. -/
theorem sparse_ext {d : α} {n k : Nat} {m m' : List (Nat × α)} (hm : SparseWf d n m) (hm' : SparseWf d k m')
    (h : ∀ j, sparseGet d m j = sparseGet d m' j) : m = m' := by
  induction m generalizing m' with
  | nil =>
    cases m' with
    | nil => rfl
    | cons e m' =>
      have h1 := h e.1
      simp [sparseGet] at h1
      exact absurd h1.symm (hm'.2 e (by simp)).2
  | cons e m ih =>
    obtain ⟨⟨ha, hs⟩, hv⟩ := And.imp_left List.pairwise_cons.1 hm
    have hw : SparseWf d n m := ⟨hs, fun b hb => hv b (List.mem_cons_of_mem _ hb)⟩
    cases m' with
    | nil =>
      have h1 := h e.1
      simp [sparseGet] at h1
      exact absurd h1 (hv e (by simp)).2
    | cons e' m' =>
      obtain ⟨⟨ha', hs'⟩, hv'⟩ := And.imp_left List.pairwise_cons.1 hm'
      have hw' : SparseWf d k m' := ⟨hs', fun b hb => hv' b (List.mem_cons_of_mem _ hb)⟩
      obtain ⟨a, u⟩ := e
      obtain ⟨a', u'⟩ := e'
      have haa : a = a' := by
        rcases Nat.lt_trichotomy a a' with hlt | heq | hgt
        · have h1 := h a
          simp [sparseGet, hlt] at h1
          exact absurd h1 (hv (a, u) (by simp)).2
        · exact heq
        · have h1 := h a'
          simp [sparseGet, hgt] at h1
          exact absurd h1.symm (hv' (a', u') (by simp)).2
      subst haa
      have huu : u = u' := by have h1 := h a; simpa [sparseGet] using h1
      subst huu
      congr 1
      refine ih hw hw' fun j => ?_
      rcases Nat.lt_trichotomy j a with hlt | heq | hgt
      · rw [sparseGet_below d m j (fun b hb => Nat.lt_trans hlt (ha b hb)),
          sparseGet_below d m' j (fun b hb => Nat.lt_trans hlt (ha' b hb))]
      · subst heq
        rw [sparseGet_below d m j ha, sparseGet_below d m' j ha']
      · have h1 := h j
        simpa [sparseGet, Nat.lt_asymm hgt, Nat.ne_of_lt hgt] using h1

theorem mem_sparseFrom [DecidableEq α] {d : α} {f : Nat → α} {base n : Nat} {e : Nat × α} (h : e ∈ sparseFrom d f base n) :
    base ≤ e.1 ∧ e.1 < base + n ∧ e.2 ≠ d := by
  induction n generalizing base with
  | zero => simp [sparseFrom] at h
  | succ n ih =>
    rcases mem_sparseCons h with ⟨rfl, hw⟩ | h
    · exact ⟨Nat.le_refl _, by show base < _; omega, hw⟩
    · obtain ⟨h1, h2, h3⟩ := ih h
      exact ⟨by omega, by omega, h3⟩

theorem sparseFrom_sorted [DecidableEq α] (d : α) (f : Nat → α) (base n : Nat) : SparseSorted (sparseFrom d f base n) := by
  induction n generalizing base with
  | zero => exact List.Pairwise.nil
  | succ n ih => exact sparseCons_sorted (ih _) fun e he => (mem_sparseFrom he).1

theorem sparseGet_from [DecidableEq α] (d : α) (f : Nat → α) (base n j : Nat) :
    sparseGet d (sparseFrom d f base n) j = if base ≤ j ∧ j < base + n then f j else d := by
  induction n generalizing base with
  | zero => simp [sparseFrom]
  | succ n ih =>
    rw [sparseFrom, sparseGet_cons d _ base _ (fun e he => (mem_sparseFrom he).1), ih]
    by_cases h : j = base
    · subst h; simp
    · have h2 : (base + 1 ≤ j ∧ j < base + 1 + n) ↔ (base ≤ j ∧ j < base + (n + 1)) := by omega
      simp only [h, if_false, h2]

/-- Reading the array of a function. -/
theorem sparseGet_ofFn [DecidableEq α] (d : α) (f : Nat → α) (n j : Nat) :
    sparseGet d (sparseOfFn d f n) j = if j < n then f j else d := by
  simp [sparseOfFn, sparseGet_from]

/-- The array of a function is canonical. -/
theorem sparseOfFn_wf [DecidableEq α] (d : α) (f : Nat → α) (n : Nat) : SparseWf d n (sparseOfFn d f n) :=
  ⟨sparseFrom_sorted _ _ _ _, fun e he => by have := mem_sparseFrom he; exact ⟨by omega, this.2.2⟩⟩

theorem sparseWriteList_sorted [DecidableEq α] (d : α) (ws : List α) (m : List (Nat × α)) (hm : SparseSorted m) (base : Nat) :
    SparseSorted (sparseWriteList d m base ws) := by
  induction ws generalizing m base with
  | nil => exact hm
  | cons w ws ih => exact ih _ (sparseSet_sorted d m hm _ _) _

/-- Writing a list inside the array keeps the canonical form. -/
theorem sparseWriteList_wf [DecidableEq α] {d : α} {n : Nat} (ws : List α) {m : List (Nat × α)} (hm : SparseWf d n m)
    {base : Nat} (hb : base + ws.length ≤ n) : SparseWf d n (sparseWriteList d m base ws) := by
  induction ws generalizing m base with
  | nil => exact hm
  | cons w ws ih =>
    simp only [List.length_cons] at hb
    exact ih (sparseSet_wf hm (by omega) w) (by omega)

/-- Reading after a list was written: the listed values from `base` on, the old values elsewhere. -/
theorem sparseGet_writeList [DecidableEq α] (d : α) (ws : List α) (m : List (Nat × α)) (hm : SparseSorted m) (base j : Nat) :
    sparseGet d (sparseWriteList d m base ws) j =
      if base ≤ j ∧ j < base + ws.length then ws.getD (j - base) d else sparseGet d m j := by
  induction ws generalizing m base with
  | nil =>
    have h : ¬(base ≤ j ∧ j < base + 0) := by omega
    simp only [sparseWriteList, List.length_nil, h, if_false]
  | cons w ws ih =>
    rw [sparseWriteList, ih _ (sparseSet_sorted d m hm _ _), sparseGet_set d m hm]
    simp only [List.length_cons]
    by_cases h : j = base
    · subst h
      have h1 : ¬(j + 1 ≤ j ∧ j < j + 1 + ws.length) := by omega
      have h2 : j ≤ j ∧ j < j + (ws.length + 1) := by omega
      rw [if_neg h1, if_pos rfl, if_pos h2]
      simp
    · have h2 : (base + 1 ≤ j ∧ j < base + 1 + ws.length) ↔ (base ≤ j ∧ j < base + (ws.length + 1)) := by omega
      simp only [h2, if_neg h]
      split
      · rename_i hj
        obtain ⟨c, hc⟩ : ∃ c, j - base = c + 1 := ⟨j - base - 1, by omega⟩
        have hc' : j - (base + 1) = c := by omega
        rw [hc, hc']; simp
      · rfl

end Sys2Proof.Machine
end

