-- ==== Sys2Proof/Laws/State.lean ====
section
/-! SUPPORT. One lemma per field and accessor per update of the state, each true by unfolding once. -/

namespace Sys2Proof.Machine

variable (s : State)

/-! `setV`. -/

@[simp] theorem State.setV_params (r : Nibble) (b : Byte) : (s.setV r b).params = s.params := rfl
@[simp] theorem State.setV_v (r : Nibble) (b : Byte) : (s.setV r b).v = s.v.set r.toNat b r.isLt := rfl
@[simp] theorem State.setV_pc (r : Nibble) (b : Byte) : (s.setV r b).pc = s.pc := rfl
@[simp] theorem State.setV_i (r : Nibble) (b : Byte) : (s.setV r b).i = s.i := rfl
@[simp] theorem State.setV_sp (r : Nibble) (b : Byte) : (s.setV r b).sp = s.sp := rfl
@[simp] theorem State.setV_stack (r : Nibble) (b : Byte) : (s.setV r b).stack = s.stack := rfl
@[simp] theorem State.setV_dt (r : Nibble) (b : Byte) : (s.setV r b).dt = s.dt := rfl
@[simp] theorem State.setV_st (r : Nibble) (b : Byte) : (s.setV r b).st = s.st := rfl
@[simp] theorem State.setV_keys (r : Nibble) (b : Byte) : (s.setV r b).keys = s.keys := rfl
@[simp] theorem State.setV_waiting (r : Nibble) (b : Byte) : (s.setV r b).waiting = s.waiting := rfl
@[simp] theorem State.setV_received (r : Nibble) (b : Byte) : (s.setV r b).received = s.received := rfl
@[simp] theorem State.setV_latchedKey (r : Nibble) (b : Byte) : (s.setV r b).latchedKey = s.latchedKey := rfl
@[simp] theorem State.setV_fb (r : Nibble) (b : Byte) : (s.setV r b).fb = s.fb := rfl
@[simp] theorem State.setV_fbDirty (r : Nibble) (b : Byte) : (s.setV r b).fbDirty = s.fbDirty := rfl
@[simp] theorem State.setV_out (r : Nibble) (b : Byte) : (s.setV r b).out = s.out := rfl
@[simp] theorem State.setV_outDirty (r : Nibble) (b : Byte) : (s.setV r b).outDirty = s.outDirty := rfl
@[simp] theorem State.setV_filterOn (r : Nibble) (b : Byte) : (s.setV r b).filterOn = s.filterOn := rfl
@[simp] theorem State.setV_fault (r : Nibble) (b : Byte) : (s.setV r b).fault = s.fault := rfl
@[simp] theorem State.setV_mem (r : Nibble) (b : Byte) : (s.setV r b).mem = s.mem := rfl
@[simp] theorem State.setV_draws (r : Nibble) (b : Byte) : (s.setV r b).draws = s.draws := rfl
@[simp] theorem State.setV_stackAt (r : Nibble) (b : Byte) (j : Nat) : (s.setV r b).stackAt j = s.stackAt j := rfl
@[simp] theorem State.setV_readByte (r : Nibble) (b : Byte) (m : Nat) : (s.setV r b).readByte m = s.readByte m := rfl
@[simp] theorem State.setV_pixel (r : Nibble) (b : Byte) (px py : Nat) : (s.setV r b).pixel px py = s.pixel px py := rfl
@[simp] theorem State.setV_outPixel (r : Nibble) (b : Byte) (px py : Nat) : (s.setV r b).outPixel px py = s.outPixel px py := rfl
@[simp] theorem State.setV_keyDown (r : Nibble) (b : Byte) (q : Nibble) : (s.setV r b).keyDown q = s.keyDown q := rfl
@[simp] theorem State.setV_indexAddr (r : Nibble) (b : Byte) (m : Nat) : (s.setV r b).indexAddr m = s.indexAddr m := rfl

/-! `setFlag`. -/

@[simp] theorem State.setFlag_params (c : Bool) : (s.setFlag c).params = s.params := rfl
@[simp] theorem State.setFlag_v (c : Bool) : (s.setFlag c).v = s.v.set flagReg.toNat (flagByte c) flagReg.isLt := rfl
@[simp] theorem State.setFlag_pc (c : Bool) : (s.setFlag c).pc = s.pc := rfl
@[simp] theorem State.setFlag_i (c : Bool) : (s.setFlag c).i = s.i := rfl
@[simp] theorem State.setFlag_sp (c : Bool) : (s.setFlag c).sp = s.sp := rfl
@[simp] theorem State.setFlag_stack (c : Bool) : (s.setFlag c).stack = s.stack := rfl
@[simp] theorem State.setFlag_dt (c : Bool) : (s.setFlag c).dt = s.dt := rfl
@[simp] theorem State.setFlag_st (c : Bool) : (s.setFlag c).st = s.st := rfl
@[simp] theorem State.setFlag_keys (c : Bool) : (s.setFlag c).keys = s.keys := rfl
@[simp] theorem State.setFlag_waiting (c : Bool) : (s.setFlag c).waiting = s.waiting := rfl
@[simp] theorem State.setFlag_received (c : Bool) : (s.setFlag c).received = s.received := rfl
@[simp] theorem State.setFlag_latchedKey (c : Bool) : (s.setFlag c).latchedKey = s.latchedKey := rfl
@[simp] theorem State.setFlag_fb (c : Bool) : (s.setFlag c).fb = s.fb := rfl
@[simp] theorem State.setFlag_fbDirty (c : Bool) : (s.setFlag c).fbDirty = s.fbDirty := rfl
@[simp] theorem State.setFlag_out (c : Bool) : (s.setFlag c).out = s.out := rfl
@[simp] theorem State.setFlag_outDirty (c : Bool) : (s.setFlag c).outDirty = s.outDirty := rfl
@[simp] theorem State.setFlag_filterOn (c : Bool) : (s.setFlag c).filterOn = s.filterOn := rfl
@[simp] theorem State.setFlag_fault (c : Bool) : (s.setFlag c).fault = s.fault := rfl
@[simp] theorem State.setFlag_mem (c : Bool) : (s.setFlag c).mem = s.mem := rfl
@[simp] theorem State.setFlag_draws (c : Bool) : (s.setFlag c).draws = s.draws := rfl
@[simp] theorem State.setFlag_stackAt (c : Bool) (j : Nat) : (s.setFlag c).stackAt j = s.stackAt j := rfl
@[simp] theorem State.setFlag_readByte (c : Bool) (m : Nat) : (s.setFlag c).readByte m = s.readByte m := rfl
@[simp] theorem State.setFlag_pixel (c : Bool) (px py : Nat) : (s.setFlag c).pixel px py = s.pixel px py := rfl
@[simp] theorem State.setFlag_outPixel (c : Bool) (px py : Nat) : (s.setFlag c).outPixel px py = s.outPixel px py := rfl
@[simp] theorem State.setFlag_keyDown (c : Bool) (q : Nibble) : (s.setFlag c).keyDown q = s.keyDown q := rfl
@[simp] theorem State.setFlag_indexAddr (c : Bool) (m : Nat) : (s.setFlag c).indexAddr m = s.indexAddr m := rfl

/-! `setVFlag`. -/

@[simp] theorem State.setVFlag_params (r : Nibble) (b : Byte) (c : Bool) : (s.setVFlag r b c).params = s.params := rfl
@[simp] theorem State.setVFlag_pc (r : Nibble) (b : Byte) (c : Bool) : (s.setVFlag r b c).pc = s.pc := rfl
@[simp] theorem State.setVFlag_i (r : Nibble) (b : Byte) (c : Bool) : (s.setVFlag r b c).i = s.i := rfl
@[simp] theorem State.setVFlag_sp (r : Nibble) (b : Byte) (c : Bool) : (s.setVFlag r b c).sp = s.sp := rfl
@[simp] theorem State.setVFlag_stack (r : Nibble) (b : Byte) (c : Bool) : (s.setVFlag r b c).stack = s.stack := rfl
@[simp] theorem State.setVFlag_dt (r : Nibble) (b : Byte) (c : Bool) : (s.setVFlag r b c).dt = s.dt := rfl
@[simp] theorem State.setVFlag_st (r : Nibble) (b : Byte) (c : Bool) : (s.setVFlag r b c).st = s.st := rfl
@[simp] theorem State.setVFlag_keys (r : Nibble) (b : Byte) (c : Bool) : (s.setVFlag r b c).keys = s.keys := rfl
@[simp] theorem State.setVFlag_waiting (r : Nibble) (b : Byte) (c : Bool) : (s.setVFlag r b c).waiting = s.waiting := rfl
@[simp] theorem State.setVFlag_received (r : Nibble) (b : Byte) (c : Bool) : (s.setVFlag r b c).received = s.received := rfl
@[simp] theorem State.setVFlag_latchedKey (r : Nibble) (b : Byte) (c : Bool) : (s.setVFlag r b c).latchedKey = s.latchedKey := rfl
@[simp] theorem State.setVFlag_fb (r : Nibble) (b : Byte) (c : Bool) : (s.setVFlag r b c).fb = s.fb := rfl
@[simp] theorem State.setVFlag_fbDirty (r : Nibble) (b : Byte) (c : Bool) : (s.setVFlag r b c).fbDirty = s.fbDirty := rfl
@[simp] theorem State.setVFlag_out (r : Nibble) (b : Byte) (c : Bool) : (s.setVFlag r b c).out = s.out := rfl
@[simp] theorem State.setVFlag_outDirty (r : Nibble) (b : Byte) (c : Bool) : (s.setVFlag r b c).outDirty = s.outDirty := rfl
@[simp] theorem State.setVFlag_filterOn (r : Nibble) (b : Byte) (c : Bool) : (s.setVFlag r b c).filterOn = s.filterOn := rfl
@[simp] theorem State.setVFlag_fault (r : Nibble) (b : Byte) (c : Bool) : (s.setVFlag r b c).fault = s.fault := rfl
@[simp] theorem State.setVFlag_mem (r : Nibble) (b : Byte) (c : Bool) : (s.setVFlag r b c).mem = s.mem := rfl
@[simp] theorem State.setVFlag_draws (r : Nibble) (b : Byte) (c : Bool) : (s.setVFlag r b c).draws = s.draws := rfl
@[simp] theorem State.setVFlag_stackAt (r : Nibble) (b : Byte) (c : Bool) (j : Nat) : (s.setVFlag r b c).stackAt j = s.stackAt j := rfl
@[simp] theorem State.setVFlag_readByte (r : Nibble) (b : Byte) (c : Bool) (m : Nat) : (s.setVFlag r b c).readByte m = s.readByte m := rfl
@[simp] theorem State.setVFlag_pixel (r : Nibble) (b : Byte) (c : Bool) (px py : Nat) : (s.setVFlag r b c).pixel px py = s.pixel px py := rfl
@[simp] theorem State.setVFlag_outPixel (r : Nibble) (b : Byte) (c : Bool) (px py : Nat) : (s.setVFlag r b c).outPixel px py = s.outPixel px py := rfl
@[simp] theorem State.setVFlag_keyDown (r : Nibble) (b : Byte) (c : Bool) (q : Nibble) : (s.setVFlag r b c).keyDown q = s.keyDown q := rfl
@[simp] theorem State.setVFlag_indexAddr (r : Nibble) (b : Byte) (c : Bool) (m : Nat) : (s.setVFlag r b c).indexAddr m = s.indexAddr m := rfl

/-! `setI`. -/

@[simp] theorem State.setI_params (a : Word) : (s.setI a).params = s.params := rfl
@[simp] theorem State.setI_v (a : Word) : (s.setI a).v = s.v := rfl
@[simp] theorem State.setI_pc (a : Word) : (s.setI a).pc = s.pc := rfl
@[simp] theorem State.setI_i (a : Word) : (s.setI a).i = a := rfl
@[simp] theorem State.setI_sp (a : Word) : (s.setI a).sp = s.sp := rfl
@[simp] theorem State.setI_stack (a : Word) : (s.setI a).stack = s.stack := rfl
@[simp] theorem State.setI_dt (a : Word) : (s.setI a).dt = s.dt := rfl
@[simp] theorem State.setI_st (a : Word) : (s.setI a).st = s.st := rfl
@[simp] theorem State.setI_keys (a : Word) : (s.setI a).keys = s.keys := rfl
@[simp] theorem State.setI_waiting (a : Word) : (s.setI a).waiting = s.waiting := rfl
@[simp] theorem State.setI_received (a : Word) : (s.setI a).received = s.received := rfl
@[simp] theorem State.setI_latchedKey (a : Word) : (s.setI a).latchedKey = s.latchedKey := rfl
@[simp] theorem State.setI_fb (a : Word) : (s.setI a).fb = s.fb := rfl
@[simp] theorem State.setI_fbDirty (a : Word) : (s.setI a).fbDirty = s.fbDirty := rfl
@[simp] theorem State.setI_out (a : Word) : (s.setI a).out = s.out := rfl
@[simp] theorem State.setI_outDirty (a : Word) : (s.setI a).outDirty = s.outDirty := rfl
@[simp] theorem State.setI_filterOn (a : Word) : (s.setI a).filterOn = s.filterOn := rfl
@[simp] theorem State.setI_fault (a : Word) : (s.setI a).fault = s.fault := rfl
@[simp] theorem State.setI_mem (a : Word) : (s.setI a).mem = s.mem := rfl
@[simp] theorem State.setI_draws (a : Word) : (s.setI a).draws = s.draws := rfl
@[simp] theorem State.setI_getV (a : Word) (q : Nibble) : (s.setI a).getV q = s.getV q := rfl
@[simp] theorem State.setI_stackAt (a : Word) (j : Nat) : (s.setI a).stackAt j = s.stackAt j := rfl
@[simp] theorem State.setI_readByte (a : Word) (m : Nat) : (s.setI a).readByte m = s.readByte m := rfl
@[simp] theorem State.setI_pixel (a : Word) (px py : Nat) : (s.setI a).pixel px py = s.pixel px py := rfl
@[simp] theorem State.setI_outPixel (a : Word) (px py : Nat) : (s.setI a).outPixel px py = s.outPixel px py := rfl
@[simp] theorem State.setI_keyDown (a : Word) (q : Nibble) : (s.setI a).keyDown q = s.keyDown q := rfl

/-! `jump`. -/

@[simp] theorem State.jump_params (a : Word) : (s.jump a).params = s.params := rfl
@[simp] theorem State.jump_v (a : Word) : (s.jump a).v = s.v := rfl
@[simp] theorem State.jump_pc (a : Word) : (s.jump a).pc = a := rfl
@[simp] theorem State.jump_i (a : Word) : (s.jump a).i = s.i := rfl
@[simp] theorem State.jump_sp (a : Word) : (s.jump a).sp = s.sp := rfl
@[simp] theorem State.jump_stack (a : Word) : (s.jump a).stack = s.stack := rfl
@[simp] theorem State.jump_dt (a : Word) : (s.jump a).dt = s.dt := rfl
@[simp] theorem State.jump_st (a : Word) : (s.jump a).st = s.st := rfl
@[simp] theorem State.jump_keys (a : Word) : (s.jump a).keys = s.keys := rfl
@[simp] theorem State.jump_waiting (a : Word) : (s.jump a).waiting = s.waiting := rfl
@[simp] theorem State.jump_received (a : Word) : (s.jump a).received = s.received := rfl
@[simp] theorem State.jump_latchedKey (a : Word) : (s.jump a).latchedKey = s.latchedKey := rfl
@[simp] theorem State.jump_fb (a : Word) : (s.jump a).fb = s.fb := rfl
@[simp] theorem State.jump_fbDirty (a : Word) : (s.jump a).fbDirty = s.fbDirty := rfl
@[simp] theorem State.jump_out (a : Word) : (s.jump a).out = s.out := rfl
@[simp] theorem State.jump_outDirty (a : Word) : (s.jump a).outDirty = s.outDirty := rfl
@[simp] theorem State.jump_filterOn (a : Word) : (s.jump a).filterOn = s.filterOn := rfl
@[simp] theorem State.jump_fault (a : Word) : (s.jump a).fault = s.fault := rfl
@[simp] theorem State.jump_mem (a : Word) : (s.jump a).mem = s.mem := rfl
@[simp] theorem State.jump_draws (a : Word) : (s.jump a).draws = s.draws := rfl
@[simp] theorem State.jump_getV (a : Word) (q : Nibble) : (s.jump a).getV q = s.getV q := rfl
@[simp] theorem State.jump_stackAt (a : Word) (j : Nat) : (s.jump a).stackAt j = s.stackAt j := rfl
@[simp] theorem State.jump_readByte (a : Word) (m : Nat) : (s.jump a).readByte m = s.readByte m := rfl
@[simp] theorem State.jump_pixel (a : Word) (px py : Nat) : (s.jump a).pixel px py = s.pixel px py := rfl
@[simp] theorem State.jump_outPixel (a : Word) (px py : Nat) : (s.jump a).outPixel px py = s.outPixel px py := rfl
@[simp] theorem State.jump_keyDown (a : Word) (q : Nibble) : (s.jump a).keyDown q = s.keyDown q := rfl
@[simp] theorem State.jump_indexAddr (a : Word) (m : Nat) : (s.jump a).indexAddr m = s.indexAddr m := rfl

/-! `advance`. -/

@[simp] theorem State.advance_params : s.advance.params = s.params := rfl
@[simp] theorem State.advance_v : s.advance.v = s.v := rfl
@[simp] theorem State.advance_pc : s.advance.pc = s.pc + 2#16 := rfl
@[simp] theorem State.advance_i : s.advance.i = s.i := rfl
@[simp] theorem State.advance_sp : s.advance.sp = s.sp := rfl
@[simp] theorem State.advance_stack : s.advance.stack = s.stack := rfl
@[simp] theorem State.advance_dt : s.advance.dt = s.dt := rfl
@[simp] theorem State.advance_st : s.advance.st = s.st := rfl
@[simp] theorem State.advance_keys : s.advance.keys = s.keys := rfl
@[simp] theorem State.advance_waiting : s.advance.waiting = s.waiting := rfl
@[simp] theorem State.advance_received : s.advance.received = s.received := rfl
@[simp] theorem State.advance_latchedKey : s.advance.latchedKey = s.latchedKey := rfl
@[simp] theorem State.advance_fb : s.advance.fb = s.fb := rfl
@[simp] theorem State.advance_fbDirty : s.advance.fbDirty = s.fbDirty := rfl
@[simp] theorem State.advance_out : s.advance.out = s.out := rfl
@[simp] theorem State.advance_outDirty : s.advance.outDirty = s.outDirty := rfl
@[simp] theorem State.advance_filterOn : s.advance.filterOn = s.filterOn := rfl
@[simp] theorem State.advance_fault : s.advance.fault = s.fault := rfl
@[simp] theorem State.advance_mem : s.advance.mem = s.mem := rfl
@[simp] theorem State.advance_draws : s.advance.draws = s.draws := rfl
@[simp] theorem State.advance_getV (q : Nibble) : s.advance.getV q = s.getV q := rfl
@[simp] theorem State.advance_stackAt (j : Nat) : s.advance.stackAt j = s.stackAt j := rfl
@[simp] theorem State.advance_readByte (m : Nat) : s.advance.readByte m = s.readByte m := rfl
@[simp] theorem State.advance_pixel (px py : Nat) : s.advance.pixel px py = s.pixel px py := rfl
@[simp] theorem State.advance_outPixel (px py : Nat) : s.advance.outPixel px py = s.outPixel px py := rfl
@[simp] theorem State.advance_keyDown (q : Nibble) : s.advance.keyDown q = s.keyDown q := rfl
@[simp] theorem State.advance_indexAddr (m : Nat) : s.advance.indexAddr m = s.indexAddr m := rfl

/-! `push`. -/

@[simp] theorem State.push_params (a : Word) : (s.push a).params = s.params := rfl
@[simp] theorem State.push_v (a : Word) : (s.push a).v = s.v := rfl
@[simp] theorem State.push_pc (a : Word) : (s.push a).pc = s.pc := rfl
@[simp] theorem State.push_i (a : Word) : (s.push a).i = s.i := rfl
@[simp] theorem State.push_sp (a : Word) : (s.push a).sp = s.sp + 1 := rfl
@[simp] theorem State.push_stack (a : Word) : (s.push a).stack = sparseSet 0x0000#16 s.stack s.sp a := rfl
@[simp] theorem State.push_dt (a : Word) : (s.push a).dt = s.dt := rfl
@[simp] theorem State.push_st (a : Word) : (s.push a).st = s.st := rfl
@[simp] theorem State.push_keys (a : Word) : (s.push a).keys = s.keys := rfl
@[simp] theorem State.push_waiting (a : Word) : (s.push a).waiting = s.waiting := rfl
@[simp] theorem State.push_received (a : Word) : (s.push a).received = s.received := rfl
@[simp] theorem State.push_latchedKey (a : Word) : (s.push a).latchedKey = s.latchedKey := rfl
@[simp] theorem State.push_fb (a : Word) : (s.push a).fb = s.fb := rfl
@[simp] theorem State.push_fbDirty (a : Word) : (s.push a).fbDirty = s.fbDirty := rfl
@[simp] theorem State.push_out (a : Word) : (s.push a).out = s.out := rfl
@[simp] theorem State.push_outDirty (a : Word) : (s.push a).outDirty = s.outDirty := rfl
@[simp] theorem State.push_filterOn (a : Word) : (s.push a).filterOn = s.filterOn := rfl
@[simp] theorem State.push_fault (a : Word) : (s.push a).fault = s.fault := rfl
@[simp] theorem State.push_mem (a : Word) : (s.push a).mem = s.mem := rfl
@[simp] theorem State.push_draws (a : Word) : (s.push a).draws = s.draws := rfl
@[simp] theorem State.push_getV (a : Word) (q : Nibble) : (s.push a).getV q = s.getV q := rfl
@[simp] theorem State.push_readByte (a : Word) (m : Nat) : (s.push a).readByte m = s.readByte m := rfl
@[simp] theorem State.push_pixel (a : Word) (px py : Nat) : (s.push a).pixel px py = s.pixel px py := rfl
@[simp] theorem State.push_outPixel (a : Word) (px py : Nat) : (s.push a).outPixel px py = s.outPixel px py := rfl
@[simp] theorem State.push_keyDown (a : Word) (q : Nibble) : (s.push a).keyDown q = s.keyDown q := rfl
@[simp] theorem State.push_indexAddr (a : Word) (m : Nat) : (s.push a).indexAddr m = s.indexAddr m := rfl

/-! `dropTop`. -/

@[simp] theorem State.dropTop_params : s.dropTop.params = s.params := rfl
@[simp] theorem State.dropTop_v : s.dropTop.v = s.v := rfl
@[simp] theorem State.dropTop_pc : s.dropTop.pc = s.pc := rfl
@[simp] theorem State.dropTop_i : s.dropTop.i = s.i := rfl
@[simp] theorem State.dropTop_sp : s.dropTop.sp = s.sp - 1 := rfl
@[simp] theorem State.dropTop_stack : s.dropTop.stack = s.stack := rfl
@[simp] theorem State.dropTop_dt : s.dropTop.dt = s.dt := rfl
@[simp] theorem State.dropTop_st : s.dropTop.st = s.st := rfl
@[simp] theorem State.dropTop_keys : s.dropTop.keys = s.keys := rfl
@[simp] theorem State.dropTop_waiting : s.dropTop.waiting = s.waiting := rfl
@[simp] theorem State.dropTop_received : s.dropTop.received = s.received := rfl
@[simp] theorem State.dropTop_latchedKey : s.dropTop.latchedKey = s.latchedKey := rfl
@[simp] theorem State.dropTop_fb : s.dropTop.fb = s.fb := rfl
@[simp] theorem State.dropTop_fbDirty : s.dropTop.fbDirty = s.fbDirty := rfl
@[simp] theorem State.dropTop_out : s.dropTop.out = s.out := rfl
@[simp] theorem State.dropTop_outDirty : s.dropTop.outDirty = s.outDirty := rfl
@[simp] theorem State.dropTop_filterOn : s.dropTop.filterOn = s.filterOn := rfl
@[simp] theorem State.dropTop_fault : s.dropTop.fault = s.fault := rfl
@[simp] theorem State.dropTop_mem : s.dropTop.mem = s.mem := rfl
@[simp] theorem State.dropTop_draws : s.dropTop.draws = s.draws := rfl
@[simp] theorem State.dropTop_getV (q : Nibble) : s.dropTop.getV q = s.getV q := rfl
@[simp] theorem State.dropTop_stackAt (j : Nat) : s.dropTop.stackAt j = s.stackAt j := rfl
@[simp] theorem State.dropTop_readByte (m : Nat) : s.dropTop.readByte m = s.readByte m := rfl
@[simp] theorem State.dropTop_pixel (px py : Nat) : s.dropTop.pixel px py = s.pixel px py := rfl
@[simp] theorem State.dropTop_outPixel (px py : Nat) : s.dropTop.outPixel px py = s.outPixel px py := rfl
@[simp] theorem State.dropTop_keyDown (q : Nibble) : s.dropTop.keyDown q = s.keyDown q := rfl
@[simp] theorem State.dropTop_indexAddr (m : Nat) : s.dropTop.indexAddr m = s.indexAddr m := rfl

/-! `writeByte`. -/

@[simp] theorem State.writeByte_params (a : Nat) (b : Byte) : (s.writeByte a b).params = s.params := rfl
@[simp] theorem State.writeByte_v (a : Nat) (b : Byte) : (s.writeByte a b).v = s.v := rfl
@[simp] theorem State.writeByte_pc (a : Nat) (b : Byte) : (s.writeByte a b).pc = s.pc := rfl
@[simp] theorem State.writeByte_i (a : Nat) (b : Byte) : (s.writeByte a b).i = s.i := rfl
@[simp] theorem State.writeByte_sp (a : Nat) (b : Byte) : (s.writeByte a b).sp = s.sp := rfl
@[simp] theorem State.writeByte_stack (a : Nat) (b : Byte) : (s.writeByte a b).stack = s.stack := rfl
@[simp] theorem State.writeByte_dt (a : Nat) (b : Byte) : (s.writeByte a b).dt = s.dt := rfl
@[simp] theorem State.writeByte_st (a : Nat) (b : Byte) : (s.writeByte a b).st = s.st := rfl
@[simp] theorem State.writeByte_keys (a : Nat) (b : Byte) : (s.writeByte a b).keys = s.keys := rfl
@[simp] theorem State.writeByte_waiting (a : Nat) (b : Byte) : (s.writeByte a b).waiting = s.waiting := rfl
@[simp] theorem State.writeByte_received (a : Nat) (b : Byte) : (s.writeByte a b).received = s.received := rfl
@[simp] theorem State.writeByte_latchedKey (a : Nat) (b : Byte) : (s.writeByte a b).latchedKey = s.latchedKey := rfl
@[simp] theorem State.writeByte_fb (a : Nat) (b : Byte) : (s.writeByte a b).fb = s.fb := rfl
@[simp] theorem State.writeByte_fbDirty (a : Nat) (b : Byte) : (s.writeByte a b).fbDirty = s.fbDirty := rfl
@[simp] theorem State.writeByte_out (a : Nat) (b : Byte) : (s.writeByte a b).out = s.out := rfl
@[simp] theorem State.writeByte_outDirty (a : Nat) (b : Byte) : (s.writeByte a b).outDirty = s.outDirty := rfl
@[simp] theorem State.writeByte_filterOn (a : Nat) (b : Byte) : (s.writeByte a b).filterOn = s.filterOn := rfl
@[simp] theorem State.writeByte_fault (a : Nat) (b : Byte) : (s.writeByte a b).fault = s.fault := rfl
@[simp] theorem State.writeByte_mem (a : Nat) (b : Byte) : (s.writeByte a b).mem = memWrite s.mem a b := rfl
@[simp] theorem State.writeByte_draws (a : Nat) (b : Byte) : (s.writeByte a b).draws = s.draws := rfl
@[simp] theorem State.writeByte_getV (a : Nat) (b : Byte) (q : Nibble) : (s.writeByte a b).getV q = s.getV q := rfl
@[simp] theorem State.writeByte_stackAt (a : Nat) (b : Byte) (j : Nat) : (s.writeByte a b).stackAt j = s.stackAt j := rfl
@[simp] theorem State.writeByte_pixel (a : Nat) (b : Byte) (px py : Nat) : (s.writeByte a b).pixel px py = s.pixel px py := rfl
@[simp] theorem State.writeByte_outPixel (a : Nat) (b : Byte) (px py : Nat) : (s.writeByte a b).outPixel px py = s.outPixel px py := rfl
@[simp] theorem State.writeByte_keyDown (a : Nat) (b : Byte) (q : Nibble) : (s.writeByte a b).keyDown q = s.keyDown q := rfl
@[simp] theorem State.writeByte_indexAddr (a : Nat) (b : Byte) (m : Nat) : (s.writeByte a b).indexAddr m = s.indexAddr m := rfl

/-! `writeBytes`. -/

@[simp] theorem State.writeBytes_params (a : Nat) (bs : List Byte) : (s.writeBytes a bs).params = s.params := rfl
@[simp] theorem State.writeBytes_v (a : Nat) (bs : List Byte) : (s.writeBytes a bs).v = s.v := rfl
@[simp] theorem State.writeBytes_pc (a : Nat) (bs : List Byte) : (s.writeBytes a bs).pc = s.pc := rfl
@[simp] theorem State.writeBytes_i (a : Nat) (bs : List Byte) : (s.writeBytes a bs).i = s.i := rfl
@[simp] theorem State.writeBytes_sp (a : Nat) (bs : List Byte) : (s.writeBytes a bs).sp = s.sp := rfl
@[simp] theorem State.writeBytes_stack (a : Nat) (bs : List Byte) : (s.writeBytes a bs).stack = s.stack := rfl
@[simp] theorem State.writeBytes_dt (a : Nat) (bs : List Byte) : (s.writeBytes a bs).dt = s.dt := rfl
@[simp] theorem State.writeBytes_st (a : Nat) (bs : List Byte) : (s.writeBytes a bs).st = s.st := rfl
@[simp] theorem State.writeBytes_keys (a : Nat) (bs : List Byte) : (s.writeBytes a bs).keys = s.keys := rfl
@[simp] theorem State.writeBytes_waiting (a : Nat) (bs : List Byte) : (s.writeBytes a bs).waiting = s.waiting := rfl
@[simp] theorem State.writeBytes_received (a : Nat) (bs : List Byte) : (s.writeBytes a bs).received = s.received := rfl
@[simp] theorem State.writeBytes_latchedKey (a : Nat) (bs : List Byte) : (s.writeBytes a bs).latchedKey = s.latchedKey := rfl
@[simp] theorem State.writeBytes_fb (a : Nat) (bs : List Byte) : (s.writeBytes a bs).fb = s.fb := rfl
@[simp] theorem State.writeBytes_fbDirty (a : Nat) (bs : List Byte) : (s.writeBytes a bs).fbDirty = s.fbDirty := rfl
@[simp] theorem State.writeBytes_out (a : Nat) (bs : List Byte) : (s.writeBytes a bs).out = s.out := rfl
@[simp] theorem State.writeBytes_outDirty (a : Nat) (bs : List Byte) : (s.writeBytes a bs).outDirty = s.outDirty := rfl
@[simp] theorem State.writeBytes_filterOn (a : Nat) (bs : List Byte) : (s.writeBytes a bs).filterOn = s.filterOn := rfl
@[simp] theorem State.writeBytes_fault (a : Nat) (bs : List Byte) : (s.writeBytes a bs).fault = s.fault := rfl
@[simp] theorem State.writeBytes_mem (a : Nat) (bs : List Byte) : (s.writeBytes a bs).mem = memWriteList s.mem a bs := rfl
@[simp] theorem State.writeBytes_draws (a : Nat) (bs : List Byte) : (s.writeBytes a bs).draws = s.draws := rfl
@[simp] theorem State.writeBytes_getV (a : Nat) (bs : List Byte) (q : Nibble) : (s.writeBytes a bs).getV q = s.getV q := rfl
@[simp] theorem State.writeBytes_stackAt (a : Nat) (bs : List Byte) (j : Nat) : (s.writeBytes a bs).stackAt j = s.stackAt j := rfl
@[simp] theorem State.writeBytes_pixel (a : Nat) (bs : List Byte) (px py : Nat) : (s.writeBytes a bs).pixel px py = s.pixel px py := rfl
@[simp] theorem State.writeBytes_outPixel (a : Nat) (bs : List Byte) (px py : Nat) : (s.writeBytes a bs).outPixel px py = s.outPixel px py := rfl
@[simp] theorem State.writeBytes_keyDown (a : Nat) (bs : List Byte) (q : Nibble) : (s.writeBytes a bs).keyDown q = s.keyDown q := rfl
@[simp] theorem State.writeBytes_indexAddr (a : Nat) (bs : List Byte) (m : Nat) : (s.writeBytes a bs).indexAddr m = s.indexAddr m := rfl

/-! `setFb`. -/

@[simp] theorem State.setFb_params (g : Grid) : (s.setFb g).params = s.params := rfl
@[simp] theorem State.setFb_v (g : Grid) : (s.setFb g).v = s.v := rfl
@[simp] theorem State.setFb_pc (g : Grid) : (s.setFb g).pc = s.pc := rfl
@[simp] theorem State.setFb_i (g : Grid) : (s.setFb g).i = s.i := rfl
@[simp] theorem State.setFb_sp (g : Grid) : (s.setFb g).sp = s.sp := rfl
@[simp] theorem State.setFb_stack (g : Grid) : (s.setFb g).stack = s.stack := rfl
@[simp] theorem State.setFb_dt (g : Grid) : (s.setFb g).dt = s.dt := rfl
@[simp] theorem State.setFb_st (g : Grid) : (s.setFb g).st = s.st := rfl
@[simp] theorem State.setFb_keys (g : Grid) : (s.setFb g).keys = s.keys := rfl
@[simp] theorem State.setFb_waiting (g : Grid) : (s.setFb g).waiting = s.waiting := rfl
@[simp] theorem State.setFb_received (g : Grid) : (s.setFb g).received = s.received := rfl
@[simp] theorem State.setFb_latchedKey (g : Grid) : (s.setFb g).latchedKey = s.latchedKey := rfl
@[simp] theorem State.setFb_fb (g : Grid) : (s.setFb g).fb = g := rfl
@[simp] theorem State.setFb_fbDirty (g : Grid) : (s.setFb g).fbDirty = s.fbDirty := rfl
@[simp] theorem State.setFb_out (g : Grid) : (s.setFb g).out = s.out := rfl
@[simp] theorem State.setFb_outDirty (g : Grid) : (s.setFb g).outDirty = s.outDirty := rfl
@[simp] theorem State.setFb_filterOn (g : Grid) : (s.setFb g).filterOn = s.filterOn := rfl
@[simp] theorem State.setFb_fault (g : Grid) : (s.setFb g).fault = s.fault := rfl
@[simp] theorem State.setFb_mem (g : Grid) : (s.setFb g).mem = s.mem := rfl
@[simp] theorem State.setFb_draws (g : Grid) : (s.setFb g).draws = s.draws := rfl
@[simp] theorem State.setFb_getV (g : Grid) (q : Nibble) : (s.setFb g).getV q = s.getV q := rfl
@[simp] theorem State.setFb_stackAt (g : Grid) (j : Nat) : (s.setFb g).stackAt j = s.stackAt j := rfl
@[simp] theorem State.setFb_readByte (g : Grid) (m : Nat) : (s.setFb g).readByte m = s.readByte m := rfl
@[simp] theorem State.setFb_outPixel (g : Grid) (px py : Nat) : (s.setFb g).outPixel px py = s.outPixel px py := rfl
@[simp] theorem State.setFb_keyDown (g : Grid) (q : Nibble) : (s.setFb g).keyDown q = s.keyDown q := rfl
@[simp] theorem State.setFb_indexAddr (g : Grid) (m : Nat) : (s.setFb g).indexAddr m = s.indexAddr m := rfl

/-! `markDirty`. -/

@[simp] theorem State.markDirty_params : s.markDirty.params = s.params := rfl
@[simp] theorem State.markDirty_v : s.markDirty.v = s.v := rfl
@[simp] theorem State.markDirty_pc : s.markDirty.pc = s.pc := rfl
@[simp] theorem State.markDirty_i : s.markDirty.i = s.i := rfl
@[simp] theorem State.markDirty_sp : s.markDirty.sp = s.sp := rfl
@[simp] theorem State.markDirty_stack : s.markDirty.stack = s.stack := rfl
@[simp] theorem State.markDirty_dt : s.markDirty.dt = s.dt := rfl
@[simp] theorem State.markDirty_st : s.markDirty.st = s.st := rfl
@[simp] theorem State.markDirty_keys : s.markDirty.keys = s.keys := rfl
@[simp] theorem State.markDirty_waiting : s.markDirty.waiting = s.waiting := rfl
@[simp] theorem State.markDirty_received : s.markDirty.received = s.received := rfl
@[simp] theorem State.markDirty_latchedKey : s.markDirty.latchedKey = s.latchedKey := rfl
@[simp] theorem State.markDirty_fb : s.markDirty.fb = s.fb := rfl
@[simp] theorem State.markDirty_fbDirty : s.markDirty.fbDirty = true := rfl
@[simp] theorem State.markDirty_out : s.markDirty.out = s.out := rfl
@[simp] theorem State.markDirty_outDirty : s.markDirty.outDirty = s.outDirty := rfl
@[simp] theorem State.markDirty_filterOn : s.markDirty.filterOn = s.filterOn := rfl
@[simp] theorem State.markDirty_fault : s.markDirty.fault = s.fault := rfl
@[simp] theorem State.markDirty_mem : s.markDirty.mem = s.mem := rfl
@[simp] theorem State.markDirty_draws : s.markDirty.draws = s.draws := rfl
@[simp] theorem State.markDirty_getV (q : Nibble) : s.markDirty.getV q = s.getV q := rfl
@[simp] theorem State.markDirty_stackAt (j : Nat) : s.markDirty.stackAt j = s.stackAt j := rfl
@[simp] theorem State.markDirty_readByte (m : Nat) : s.markDirty.readByte m = s.readByte m := rfl
@[simp] theorem State.markDirty_pixel (px py : Nat) : s.markDirty.pixel px py = s.pixel px py := rfl
@[simp] theorem State.markDirty_outPixel (px py : Nat) : s.markDirty.outPixel px py = s.outPixel px py := rfl
@[simp] theorem State.markDirty_keyDown (q : Nibble) : s.markDirty.keyDown q = s.keyDown q := rfl
@[simp] theorem State.markDirty_indexAddr (m : Nat) : s.markDirty.indexAddr m = s.indexAddr m := rfl

/-! `setDT`. -/

@[simp] theorem State.setDT_params (b : Byte) : (s.setDT b).params = s.params := rfl
@[simp] theorem State.setDT_v (b : Byte) : (s.setDT b).v = s.v := rfl
@[simp] theorem State.setDT_pc (b : Byte) : (s.setDT b).pc = s.pc := rfl
@[simp] theorem State.setDT_i (b : Byte) : (s.setDT b).i = s.i := rfl
@[simp] theorem State.setDT_sp (b : Byte) : (s.setDT b).sp = s.sp := rfl
@[simp] theorem State.setDT_stack (b : Byte) : (s.setDT b).stack = s.stack := rfl
@[simp] theorem State.setDT_dt (b : Byte) : (s.setDT b).dt = b := rfl
@[simp] theorem State.setDT_st (b : Byte) : (s.setDT b).st = s.st := rfl
@[simp] theorem State.setDT_keys (b : Byte) : (s.setDT b).keys = s.keys := rfl
@[simp] theorem State.setDT_waiting (b : Byte) : (s.setDT b).waiting = s.waiting := rfl
@[simp] theorem State.setDT_received (b : Byte) : (s.setDT b).received = s.received := rfl
@[simp] theorem State.setDT_latchedKey (b : Byte) : (s.setDT b).latchedKey = s.latchedKey := rfl
@[simp] theorem State.setDT_fb (b : Byte) : (s.setDT b).fb = s.fb := rfl
@[simp] theorem State.setDT_fbDirty (b : Byte) : (s.setDT b).fbDirty = s.fbDirty := rfl
@[simp] theorem State.setDT_out (b : Byte) : (s.setDT b).out = s.out := rfl
@[simp] theorem State.setDT_outDirty (b : Byte) : (s.setDT b).outDirty = s.outDirty := rfl
@[simp] theorem State.setDT_filterOn (b : Byte) : (s.setDT b).filterOn = s.filterOn := rfl
@[simp] theorem State.setDT_fault (b : Byte) : (s.setDT b).fault = s.fault := rfl
@[simp] theorem State.setDT_mem (b : Byte) : (s.setDT b).mem = s.mem := rfl
@[simp] theorem State.setDT_draws (b : Byte) : (s.setDT b).draws = s.draws := rfl
@[simp] theorem State.setDT_getV (b : Byte) (q : Nibble) : (s.setDT b).getV q = s.getV q := rfl
@[simp] theorem State.setDT_stackAt (b : Byte) (j : Nat) : (s.setDT b).stackAt j = s.stackAt j := rfl
@[simp] theorem State.setDT_readByte (b : Byte) (m : Nat) : (s.setDT b).readByte m = s.readByte m := rfl
@[simp] theorem State.setDT_pixel (b : Byte) (px py : Nat) : (s.setDT b).pixel px py = s.pixel px py := rfl
@[simp] theorem State.setDT_outPixel (b : Byte) (px py : Nat) : (s.setDT b).outPixel px py = s.outPixel px py := rfl
@[simp] theorem State.setDT_keyDown (b : Byte) (q : Nibble) : (s.setDT b).keyDown q = s.keyDown q := rfl
@[simp] theorem State.setDT_indexAddr (b : Byte) (m : Nat) : (s.setDT b).indexAddr m = s.indexAddr m := rfl

/-! `setST`. -/

@[simp] theorem State.setST_params (b : Byte) : (s.setST b).params = s.params := rfl
@[simp] theorem State.setST_v (b : Byte) : (s.setST b).v = s.v := rfl
@[simp] theorem State.setST_pc (b : Byte) : (s.setST b).pc = s.pc := rfl
@[simp] theorem State.setST_i (b : Byte) : (s.setST b).i = s.i := rfl
@[simp] theorem State.setST_sp (b : Byte) : (s.setST b).sp = s.sp := rfl
@[simp] theorem State.setST_stack (b : Byte) : (s.setST b).stack = s.stack := rfl
@[simp] theorem State.setST_dt (b : Byte) : (s.setST b).dt = s.dt := rfl
@[simp] theorem State.setST_st (b : Byte) : (s.setST b).st = b := rfl
@[simp] theorem State.setST_keys (b : Byte) : (s.setST b).keys = s.keys := rfl
@[simp] theorem State.setST_waiting (b : Byte) : (s.setST b).waiting = s.waiting := rfl
@[simp] theorem State.setST_received (b : Byte) : (s.setST b).received = s.received := rfl
@[simp] theorem State.setST_latchedKey (b : Byte) : (s.setST b).latchedKey = s.latchedKey := rfl
@[simp] theorem State.setST_fb (b : Byte) : (s.setST b).fb = s.fb := rfl
@[simp] theorem State.setST_fbDirty (b : Byte) : (s.setST b).fbDirty = s.fbDirty := rfl
@[simp] theorem State.setST_out (b : Byte) : (s.setST b).out = s.out := rfl
@[simp] theorem State.setST_outDirty (b : Byte) : (s.setST b).outDirty = s.outDirty := rfl
@[simp] theorem State.setST_filterOn (b : Byte) : (s.setST b).filterOn = s.filterOn := rfl
@[simp] theorem State.setST_fault (b : Byte) : (s.setST b).fault = s.fault := rfl
@[simp] theorem State.setST_mem (b : Byte) : (s.setST b).mem = s.mem := rfl
@[simp] theorem State.setST_draws (b : Byte) : (s.setST b).draws = s.draws := rfl
@[simp] theorem State.setST_getV (b : Byte) (q : Nibble) : (s.setST b).getV q = s.getV q := rfl
@[simp] theorem State.setST_stackAt (b : Byte) (j : Nat) : (s.setST b).stackAt j = s.stackAt j := rfl
@[simp] theorem State.setST_readByte (b : Byte) (m : Nat) : (s.setST b).readByte m = s.readByte m := rfl
@[simp] theorem State.setST_pixel (b : Byte) (px py : Nat) : (s.setST b).pixel px py = s.pixel px py := rfl
@[simp] theorem State.setST_outPixel (b : Byte) (px py : Nat) : (s.setST b).outPixel px py = s.outPixel px py := rfl
@[simp] theorem State.setST_keyDown (b : Byte) (q : Nibble) : (s.setST b).keyDown q = s.keyDown q := rfl
@[simp] theorem State.setST_indexAddr (b : Byte) (m : Nat) : (s.setST b).indexAddr m = s.indexAddr m := rfl

/-! `startWait`. -/

@[simp] theorem State.startWait_params : s.startWait.params = s.params := rfl
@[simp] theorem State.startWait_v : s.startWait.v = s.v := rfl
@[simp] theorem State.startWait_pc : s.startWait.pc = s.pc := rfl
@[simp] theorem State.startWait_i : s.startWait.i = s.i := rfl
@[simp] theorem State.startWait_sp : s.startWait.sp = s.sp := rfl
@[simp] theorem State.startWait_stack : s.startWait.stack = s.stack := rfl
@[simp] theorem State.startWait_dt : s.startWait.dt = s.dt := rfl
@[simp] theorem State.startWait_st : s.startWait.st = s.st := rfl
@[simp] theorem State.startWait_keys : s.startWait.keys = s.keys := rfl
@[simp] theorem State.startWait_waiting : s.startWait.waiting = true := rfl
@[simp] theorem State.startWait_received : s.startWait.received = s.received := rfl
@[simp] theorem State.startWait_latchedKey : s.startWait.latchedKey = s.latchedKey := rfl
@[simp] theorem State.startWait_fb : s.startWait.fb = s.fb := rfl
@[simp] theorem State.startWait_fbDirty : s.startWait.fbDirty = s.fbDirty := rfl
@[simp] theorem State.startWait_out : s.startWait.out = s.out := rfl
@[simp] theorem State.startWait_outDirty : s.startWait.outDirty = s.outDirty := rfl
@[simp] theorem State.startWait_filterOn : s.startWait.filterOn = s.filterOn := rfl
@[simp] theorem State.startWait_fault : s.startWait.fault = s.fault := rfl
@[simp] theorem State.startWait_mem : s.startWait.mem = s.mem := rfl
@[simp] theorem State.startWait_draws : s.startWait.draws = s.draws := rfl
@[simp] theorem State.startWait_getV (q : Nibble) : s.startWait.getV q = s.getV q := rfl
@[simp] theorem State.startWait_stackAt (j : Nat) : s.startWait.stackAt j = s.stackAt j := rfl
@[simp] theorem State.startWait_readByte (m : Nat) : s.startWait.readByte m = s.readByte m := rfl
@[simp] theorem State.startWait_pixel (px py : Nat) : s.startWait.pixel px py = s.pixel px py := rfl
@[simp] theorem State.startWait_outPixel (px py : Nat) : s.startWait.outPixel px py = s.outPixel px py := rfl
@[simp] theorem State.startWait_keyDown (q : Nibble) : s.startWait.keyDown q = s.keyDown q := rfl
@[simp] theorem State.startWait_indexAddr (m : Nat) : s.startWait.indexAddr m = s.indexAddr m := rfl

/-! `endWait`. -/

@[simp] theorem State.endWait_params : s.endWait.params = s.params := rfl
@[simp] theorem State.endWait_v : s.endWait.v = s.v := rfl
@[simp] theorem State.endWait_pc : s.endWait.pc = s.pc := rfl
@[simp] theorem State.endWait_i : s.endWait.i = s.i := rfl
@[simp] theorem State.endWait_sp : s.endWait.sp = s.sp := rfl
@[simp] theorem State.endWait_stack : s.endWait.stack = s.stack := rfl
@[simp] theorem State.endWait_dt : s.endWait.dt = s.dt := rfl
@[simp] theorem State.endWait_st : s.endWait.st = s.st := rfl
@[simp] theorem State.endWait_keys : s.endWait.keys = s.keys := rfl
@[simp] theorem State.endWait_waiting : s.endWait.waiting = false := rfl
@[simp] theorem State.endWait_received : s.endWait.received = false := rfl
@[simp] theorem State.endWait_latchedKey : s.endWait.latchedKey = s.latchedKey := rfl
@[simp] theorem State.endWait_fb : s.endWait.fb = s.fb := rfl
@[simp] theorem State.endWait_fbDirty : s.endWait.fbDirty = s.fbDirty := rfl
@[simp] theorem State.endWait_out : s.endWait.out = s.out := rfl
@[simp] theorem State.endWait_outDirty : s.endWait.outDirty = s.outDirty := rfl
@[simp] theorem State.endWait_filterOn : s.endWait.filterOn = s.filterOn := rfl
@[simp] theorem State.endWait_fault : s.endWait.fault = s.fault := rfl
@[simp] theorem State.endWait_mem : s.endWait.mem = s.mem := rfl
@[simp] theorem State.endWait_draws : s.endWait.draws = s.draws := rfl
@[simp] theorem State.endWait_getV (q : Nibble) : s.endWait.getV q = s.getV q := rfl
@[simp] theorem State.endWait_stackAt (j : Nat) : s.endWait.stackAt j = s.stackAt j := rfl
@[simp] theorem State.endWait_readByte (m : Nat) : s.endWait.readByte m = s.readByte m := rfl
@[simp] theorem State.endWait_pixel (px py : Nat) : s.endWait.pixel px py = s.pixel px py := rfl
@[simp] theorem State.endWait_outPixel (px py : Nat) : s.endWait.outPixel px py = s.outPixel px py := rfl
@[simp] theorem State.endWait_keyDown (q : Nibble) : s.endWait.keyDown q = s.keyDown q := rfl
@[simp] theorem State.endWait_indexAddr (m : Nat) : s.endWait.indexAddr m = s.indexAddr m := rfl

/-! `setKey`. -/

@[simp] theorem State.setKey_params (k : Nibble) (c : Bool) : (s.setKey k c).params = s.params := rfl
@[simp] theorem State.setKey_v (k : Nibble) (c : Bool) : (s.setKey k c).v = s.v := rfl
@[simp] theorem State.setKey_pc (k : Nibble) (c : Bool) : (s.setKey k c).pc = s.pc := rfl
@[simp] theorem State.setKey_i (k : Nibble) (c : Bool) : (s.setKey k c).i = s.i := rfl
@[simp] theorem State.setKey_sp (k : Nibble) (c : Bool) : (s.setKey k c).sp = s.sp := rfl
@[simp] theorem State.setKey_stack (k : Nibble) (c : Bool) : (s.setKey k c).stack = s.stack := rfl
@[simp] theorem State.setKey_dt (k : Nibble) (c : Bool) : (s.setKey k c).dt = s.dt := rfl
@[simp] theorem State.setKey_st (k : Nibble) (c : Bool) : (s.setKey k c).st = s.st := rfl
@[simp] theorem State.setKey_keys (k : Nibble) (c : Bool) : (s.setKey k c).keys = s.keys.set k.toNat c k.isLt := rfl
@[simp] theorem State.setKey_waiting (k : Nibble) (c : Bool) : (s.setKey k c).waiting = s.waiting := rfl
@[simp] theorem State.setKey_received (k : Nibble) (c : Bool) : (s.setKey k c).received = s.received := rfl
@[simp] theorem State.setKey_latchedKey (k : Nibble) (c : Bool) : (s.setKey k c).latchedKey = s.latchedKey := rfl
@[simp] theorem State.setKey_fb (k : Nibble) (c : Bool) : (s.setKey k c).fb = s.fb := rfl
@[simp] theorem State.setKey_fbDirty (k : Nibble) (c : Bool) : (s.setKey k c).fbDirty = s.fbDirty := rfl
@[simp] theorem State.setKey_out (k : Nibble) (c : Bool) : (s.setKey k c).out = s.out := rfl
@[simp] theorem State.setKey_outDirty (k : Nibble) (c : Bool) : (s.setKey k c).outDirty = s.outDirty := rfl
@[simp] theorem State.setKey_filterOn (k : Nibble) (c : Bool) : (s.setKey k c).filterOn = s.filterOn := rfl
@[simp] theorem State.setKey_fault (k : Nibble) (c : Bool) : (s.setKey k c).fault = s.fault := rfl
@[simp] theorem State.setKey_mem (k : Nibble) (c : Bool) : (s.setKey k c).mem = s.mem := rfl
@[simp] theorem State.setKey_draws (k : Nibble) (c : Bool) : (s.setKey k c).draws = s.draws := rfl
@[simp] theorem State.setKey_getV (k : Nibble) (c : Bool) (q : Nibble) : (s.setKey k c).getV q = s.getV q := rfl
@[simp] theorem State.setKey_stackAt (k : Nibble) (c : Bool) (j : Nat) : (s.setKey k c).stackAt j = s.stackAt j := rfl
@[simp] theorem State.setKey_readByte (k : Nibble) (c : Bool) (m : Nat) : (s.setKey k c).readByte m = s.readByte m := rfl
@[simp] theorem State.setKey_pixel (k : Nibble) (c : Bool) (px py : Nat) : (s.setKey k c).pixel px py = s.pixel px py := rfl
@[simp] theorem State.setKey_outPixel (k : Nibble) (c : Bool) (px py : Nat) : (s.setKey k c).outPixel px py = s.outPixel px py := rfl
@[simp] theorem State.setKey_indexAddr (k : Nibble) (c : Bool) (m : Nat) : (s.setKey k c).indexAddr m = s.indexAddr m := rfl

/-! `raise`. -/

@[simp] theorem State.raise_params (kd : FaultKind) (w : Option Word) (n : Option Nat) : (s.raise kd w n).params = s.params := rfl
@[simp] theorem State.raise_v (kd : FaultKind) (w : Option Word) (n : Option Nat) : (s.raise kd w n).v = s.v := rfl
@[simp] theorem State.raise_pc (kd : FaultKind) (w : Option Word) (n : Option Nat) : (s.raise kd w n).pc = s.pc := rfl
@[simp] theorem State.raise_i (kd : FaultKind) (w : Option Word) (n : Option Nat) : (s.raise kd w n).i = s.i := rfl
@[simp] theorem State.raise_sp (kd : FaultKind) (w : Option Word) (n : Option Nat) : (s.raise kd w n).sp = s.sp := rfl
@[simp] theorem State.raise_stack (kd : FaultKind) (w : Option Word) (n : Option Nat) : (s.raise kd w n).stack = s.stack := rfl
@[simp] theorem State.raise_dt (kd : FaultKind) (w : Option Word) (n : Option Nat) : (s.raise kd w n).dt = s.dt := rfl
@[simp] theorem State.raise_st (kd : FaultKind) (w : Option Word) (n : Option Nat) : (s.raise kd w n).st = s.st := rfl
@[simp] theorem State.raise_keys (kd : FaultKind) (w : Option Word) (n : Option Nat) : (s.raise kd w n).keys = s.keys := rfl
@[simp] theorem State.raise_waiting (kd : FaultKind) (w : Option Word) (n : Option Nat) : (s.raise kd w n).waiting = s.waiting := rfl
@[simp] theorem State.raise_received (kd : FaultKind) (w : Option Word) (n : Option Nat) : (s.raise kd w n).received = s.received := rfl
@[simp] theorem State.raise_latchedKey (kd : FaultKind) (w : Option Word) (n : Option Nat) : (s.raise kd w n).latchedKey = s.latchedKey := rfl
@[simp] theorem State.raise_fb (kd : FaultKind) (w : Option Word) (n : Option Nat) : (s.raise kd w n).fb = s.fb := rfl
@[simp] theorem State.raise_fbDirty (kd : FaultKind) (w : Option Word) (n : Option Nat) : (s.raise kd w n).fbDirty = s.fbDirty := rfl
@[simp] theorem State.raise_out (kd : FaultKind) (w : Option Word) (n : Option Nat) : (s.raise kd w n).out = s.out := rfl
@[simp] theorem State.raise_outDirty (kd : FaultKind) (w : Option Word) (n : Option Nat) : (s.raise kd w n).outDirty = s.outDirty := rfl
@[simp] theorem State.raise_filterOn (kd : FaultKind) (w : Option Word) (n : Option Nat) : (s.raise kd w n).filterOn = s.filterOn := rfl
@[simp] theorem State.raise_fault (kd : FaultKind) (w : Option Word) (n : Option Nat) : (s.raise kd w n).fault = some { kind := kd, addr := s.pc, word := w, info := n } := rfl
@[simp] theorem State.raise_mem (kd : FaultKind) (w : Option Word) (n : Option Nat) : (s.raise kd w n).mem = s.mem := rfl
@[simp] theorem State.raise_draws (kd : FaultKind) (w : Option Word) (n : Option Nat) : (s.raise kd w n).draws = s.draws := rfl
@[simp] theorem State.raise_getV (kd : FaultKind) (w : Option Word) (n : Option Nat) (q : Nibble) : (s.raise kd w n).getV q = s.getV q := rfl
@[simp] theorem State.raise_stackAt (kd : FaultKind) (w : Option Word) (n : Option Nat) (j : Nat) : (s.raise kd w n).stackAt j = s.stackAt j := rfl
@[simp] theorem State.raise_readByte (kd : FaultKind) (w : Option Word) (n : Option Nat) (m : Nat) : (s.raise kd w n).readByte m = s.readByte m := rfl
@[simp] theorem State.raise_pixel (kd : FaultKind) (w : Option Word) (n : Option Nat) (px py : Nat) : (s.raise kd w n).pixel px py = s.pixel px py := rfl
@[simp] theorem State.raise_outPixel (kd : FaultKind) (w : Option Word) (n : Option Nat) (px py : Nat) : (s.raise kd w n).outPixel px py = s.outPixel px py := rfl
@[simp] theorem State.raise_keyDown (kd : FaultKind) (w : Option Word) (n : Option Nat) (q : Nibble) : (s.raise kd w n).keyDown q = s.keyDown q := rfl
@[simp] theorem State.raise_indexAddr (kd : FaultKind) (w : Option Word) (n : Option Nat) (m : Nat) : (s.raise kd w n).indexAddr m = s.indexAddr m := rfl

/-! `raiseIn`. -/

@[simp] theorem State.raiseIn_params (x : Instr) (kd : FaultKind) (n : Option Nat) : (s.raiseIn x kd n).params = s.params := rfl
@[simp] theorem State.raiseIn_v (x : Instr) (kd : FaultKind) (n : Option Nat) : (s.raiseIn x kd n).v = s.v := rfl
@[simp] theorem State.raiseIn_pc (x : Instr) (kd : FaultKind) (n : Option Nat) : (s.raiseIn x kd n).pc = s.pc := rfl
@[simp] theorem State.raiseIn_i (x : Instr) (kd : FaultKind) (n : Option Nat) : (s.raiseIn x kd n).i = s.i := rfl
@[simp] theorem State.raiseIn_sp (x : Instr) (kd : FaultKind) (n : Option Nat) : (s.raiseIn x kd n).sp = s.sp := rfl
@[simp] theorem State.raiseIn_stack (x : Instr) (kd : FaultKind) (n : Option Nat) : (s.raiseIn x kd n).stack = s.stack := rfl
@[simp] theorem State.raiseIn_dt (x : Instr) (kd : FaultKind) (n : Option Nat) : (s.raiseIn x kd n).dt = s.dt := rfl
@[simp] theorem State.raiseIn_st (x : Instr) (kd : FaultKind) (n : Option Nat) : (s.raiseIn x kd n).st = s.st := rfl
@[simp] theorem State.raiseIn_keys (x : Instr) (kd : FaultKind) (n : Option Nat) : (s.raiseIn x kd n).keys = s.keys := rfl
@[simp] theorem State.raiseIn_waiting (x : Instr) (kd : FaultKind) (n : Option Nat) : (s.raiseIn x kd n).waiting = s.waiting := rfl
@[simp] theorem State.raiseIn_received (x : Instr) (kd : FaultKind) (n : Option Nat) : (s.raiseIn x kd n).received = s.received := rfl
@[simp] theorem State.raiseIn_latchedKey (x : Instr) (kd : FaultKind) (n : Option Nat) : (s.raiseIn x kd n).latchedKey = s.latchedKey := rfl
@[simp] theorem State.raiseIn_fb (x : Instr) (kd : FaultKind) (n : Option Nat) : (s.raiseIn x kd n).fb = s.fb := rfl
@[simp] theorem State.raiseIn_fbDirty (x : Instr) (kd : FaultKind) (n : Option Nat) : (s.raiseIn x kd n).fbDirty = s.fbDirty := rfl
@[simp] theorem State.raiseIn_out (x : Instr) (kd : FaultKind) (n : Option Nat) : (s.raiseIn x kd n).out = s.out := rfl
@[simp] theorem State.raiseIn_outDirty (x : Instr) (kd : FaultKind) (n : Option Nat) : (s.raiseIn x kd n).outDirty = s.outDirty := rfl
@[simp] theorem State.raiseIn_filterOn (x : Instr) (kd : FaultKind) (n : Option Nat) : (s.raiseIn x kd n).filterOn = s.filterOn := rfl
@[simp] theorem State.raiseIn_fault (x : Instr) (kd : FaultKind) (n : Option Nat) : (s.raiseIn x kd n).fault = some { kind := kd, addr := s.pc, word := some (encode x), info := n } := rfl
@[simp] theorem State.raiseIn_mem (x : Instr) (kd : FaultKind) (n : Option Nat) : (s.raiseIn x kd n).mem = s.mem := rfl
@[simp] theorem State.raiseIn_draws (x : Instr) (kd : FaultKind) (n : Option Nat) : (s.raiseIn x kd n).draws = s.draws := rfl
@[simp] theorem State.raiseIn_getV (x : Instr) (kd : FaultKind) (n : Option Nat) (q : Nibble) : (s.raiseIn x kd n).getV q = s.getV q := rfl
@[simp] theorem State.raiseIn_stackAt (x : Instr) (kd : FaultKind) (n : Option Nat) (j : Nat) : (s.raiseIn x kd n).stackAt j = s.stackAt j := rfl
@[simp] theorem State.raiseIn_readByte (x : Instr) (kd : FaultKind) (n : Option Nat) (m : Nat) : (s.raiseIn x kd n).readByte m = s.readByte m := rfl
@[simp] theorem State.raiseIn_pixel (x : Instr) (kd : FaultKind) (n : Option Nat) (px py : Nat) : (s.raiseIn x kd n).pixel px py = s.pixel px py := rfl
@[simp] theorem State.raiseIn_outPixel (x : Instr) (kd : FaultKind) (n : Option Nat) (px py : Nat) : (s.raiseIn x kd n).outPixel px py = s.outPixel px py := rfl
@[simp] theorem State.raiseIn_keyDown (x : Instr) (kd : FaultKind) (n : Option Nat) (q : Nibble) : (s.raiseIn x kd n).keyDown q = s.keyDown q := rfl
@[simp] theorem State.raiseIn_indexAddr (x : Instr) (kd : FaultKind) (n : Option Nat) (m : Nat) : (s.raiseIn x kd n).indexAddr m = s.indexAddr m := rfl

/-! `drawn`. -/

@[simp] theorem State.drawn_params : s.drawn.params = s.params := rfl
@[simp] theorem State.drawn_v : s.drawn.v = s.v := rfl
@[simp] theorem State.drawn_pc : s.drawn.pc = s.pc := rfl
@[simp] theorem State.drawn_i : s.drawn.i = s.i := rfl
@[simp] theorem State.drawn_sp : s.drawn.sp = s.sp := rfl
@[simp] theorem State.drawn_stack : s.drawn.stack = s.stack := rfl
@[simp] theorem State.drawn_dt : s.drawn.dt = s.dt := rfl
@[simp] theorem State.drawn_st : s.drawn.st = s.st := rfl
@[simp] theorem State.drawn_keys : s.drawn.keys = s.keys := rfl
@[simp] theorem State.drawn_waiting : s.drawn.waiting = s.waiting := rfl
@[simp] theorem State.drawn_received : s.drawn.received = s.received := rfl
@[simp] theorem State.drawn_latchedKey : s.drawn.latchedKey = s.latchedKey := rfl
@[simp] theorem State.drawn_fb : s.drawn.fb = s.fb := rfl
@[simp] theorem State.drawn_fbDirty : s.drawn.fbDirty = s.fbDirty := rfl
@[simp] theorem State.drawn_out : s.drawn.out = s.out := rfl
@[simp] theorem State.drawn_outDirty : s.drawn.outDirty = s.outDirty := rfl
@[simp] theorem State.drawn_filterOn : s.drawn.filterOn = s.filterOn := rfl
@[simp] theorem State.drawn_fault : s.drawn.fault = s.fault := rfl
@[simp] theorem State.drawn_mem : s.drawn.mem = s.mem := rfl
@[simp] theorem State.drawn_draws : s.drawn.draws = s.draws + 1 := rfl
@[simp] theorem State.drawn_getV (q : Nibble) : s.drawn.getV q = s.getV q := rfl
@[simp] theorem State.drawn_stackAt (j : Nat) : s.drawn.stackAt j = s.stackAt j := rfl
@[simp] theorem State.drawn_readByte (m : Nat) : s.drawn.readByte m = s.readByte m := rfl
@[simp] theorem State.drawn_pixel (px py : Nat) : s.drawn.pixel px py = s.pixel px py := rfl
@[simp] theorem State.drawn_outPixel (px py : Nat) : s.drawn.outPixel px py = s.outPixel px py := rfl
@[simp] theorem State.drawn_keyDown (q : Nibble) : s.drawn.keyDown q = s.keyDown q := rfl
@[simp] theorem State.drawn_indexAddr (m : Nat) : s.drawn.indexAddr m = s.indexAddr m := rfl

/-! `settleLatch`. -/

@[simp] theorem State.settleLatch_params : s.settleLatch.params = s.params := rfl
@[simp] theorem State.settleLatch_v : s.settleLatch.v = s.v := rfl
@[simp] theorem State.settleLatch_pc : s.settleLatch.pc = s.pc := rfl
@[simp] theorem State.settleLatch_i : s.settleLatch.i = s.i := rfl
@[simp] theorem State.settleLatch_sp : s.settleLatch.sp = s.sp := rfl
@[simp] theorem State.settleLatch_stack : s.settleLatch.stack = s.stack := rfl
@[simp] theorem State.settleLatch_dt : s.settleLatch.dt = s.dt := rfl
@[simp] theorem State.settleLatch_st : s.settleLatch.st = s.st := rfl
@[simp] theorem State.settleLatch_keys : s.settleLatch.keys = s.keys := rfl
@[simp] theorem State.settleLatch_waiting : s.settleLatch.waiting = s.waiting := rfl
@[simp] theorem State.settleLatch_received : s.settleLatch.received = s.received := rfl
@[simp] theorem State.settleLatch_fb : s.settleLatch.fb = s.fb := rfl
@[simp] theorem State.settleLatch_fbDirty : s.settleLatch.fbDirty = s.fbDirty := rfl
@[simp] theorem State.settleLatch_out : s.settleLatch.out = s.out := rfl
@[simp] theorem State.settleLatch_outDirty : s.settleLatch.outDirty = s.outDirty := rfl
@[simp] theorem State.settleLatch_filterOn : s.settleLatch.filterOn = s.filterOn := rfl
@[simp] theorem State.settleLatch_fault : s.settleLatch.fault = s.fault := rfl
@[simp] theorem State.settleLatch_mem : s.settleLatch.mem = s.mem := rfl
@[simp] theorem State.settleLatch_getV (q : Nibble) : s.settleLatch.getV q = s.getV q := rfl
@[simp] theorem State.settleLatch_stackAt (j : Nat) : s.settleLatch.stackAt j = s.stackAt j := rfl
@[simp] theorem State.settleLatch_readByte (m : Nat) : s.settleLatch.readByte m = s.readByte m := rfl
@[simp] theorem State.settleLatch_pixel (px py : Nat) : s.settleLatch.pixel px py = s.pixel px py := rfl
@[simp] theorem State.settleLatch_outPixel (px py : Nat) : s.settleLatch.outPixel px py = s.outPixel px py := rfl
@[simp] theorem State.settleLatch_keyDown (q : Nibble) : s.settleLatch.keyDown q = s.keyDown q := rfl
@[simp] theorem State.settleLatch_indexAddr (m : Nat) : s.settleLatch.indexAddr m = s.indexAddr m := rfl

/-! `skipIf`. -/

@[simp] theorem State.skipIf_pc (c : Bool) : (s.skipIf c).pc = if c then s.pc + 4#16 else s.pc + 2#16 := by cases c <;> rfl
@[simp] theorem State.skipIf_params (c : Bool) : (s.skipIf c).params = s.params := by cases c <;> rfl
@[simp] theorem State.skipIf_v (c : Bool) : (s.skipIf c).v = s.v := by cases c <;> rfl
@[simp] theorem State.skipIf_i (c : Bool) : (s.skipIf c).i = s.i := by cases c <;> rfl
@[simp] theorem State.skipIf_sp (c : Bool) : (s.skipIf c).sp = s.sp := by cases c <;> rfl
@[simp] theorem State.skipIf_stack (c : Bool) : (s.skipIf c).stack = s.stack := by cases c <;> rfl
@[simp] theorem State.skipIf_dt (c : Bool) : (s.skipIf c).dt = s.dt := by cases c <;> rfl
@[simp] theorem State.skipIf_st (c : Bool) : (s.skipIf c).st = s.st := by cases c <;> rfl
@[simp] theorem State.skipIf_keys (c : Bool) : (s.skipIf c).keys = s.keys := by cases c <;> rfl
@[simp] theorem State.skipIf_waiting (c : Bool) : (s.skipIf c).waiting = s.waiting := by cases c <;> rfl
@[simp] theorem State.skipIf_received (c : Bool) : (s.skipIf c).received = s.received := by cases c <;> rfl
@[simp] theorem State.skipIf_latchedKey (c : Bool) : (s.skipIf c).latchedKey = s.latchedKey := by cases c <;> rfl
@[simp] theorem State.skipIf_fb (c : Bool) : (s.skipIf c).fb = s.fb := by cases c <;> rfl
@[simp] theorem State.skipIf_fbDirty (c : Bool) : (s.skipIf c).fbDirty = s.fbDirty := by cases c <;> rfl
@[simp] theorem State.skipIf_out (c : Bool) : (s.skipIf c).out = s.out := by cases c <;> rfl
@[simp] theorem State.skipIf_outDirty (c : Bool) : (s.skipIf c).outDirty = s.outDirty := by cases c <;> rfl
@[simp] theorem State.skipIf_filterOn (c : Bool) : (s.skipIf c).filterOn = s.filterOn := by cases c <;> rfl
@[simp] theorem State.skipIf_fault (c : Bool) : (s.skipIf c).fault = s.fault := by cases c <;> rfl
@[simp] theorem State.skipIf_mem (c : Bool) : (s.skipIf c).mem = s.mem := by cases c <;> rfl
@[simp] theorem State.skipIf_draws (c : Bool) : (s.skipIf c).draws = s.draws := by cases c <;> rfl
@[simp] theorem State.skipIf_getV (c : Bool) (q : Nibble) : (s.skipIf c).getV q = s.getV q := by cases c <;> rfl
@[simp] theorem State.skipIf_stackAt (c : Bool) (j : Nat) : (s.skipIf c).stackAt j = s.stackAt j := by cases c <;> rfl
@[simp] theorem State.skipIf_readByte (c : Bool) (m : Nat) : (s.skipIf c).readByte m = s.readByte m := by cases c <;> rfl
@[simp] theorem State.skipIf_pixel (c : Bool) (px py : Nat) : (s.skipIf c).pixel px py = s.pixel px py := by cases c <;> rfl
@[simp] theorem State.skipIf_outPixel (c : Bool) (px py : Nat) : (s.skipIf c).outPixel px py = s.outPixel px py := by cases c <;> rfl
@[simp] theorem State.skipIf_keyDown (c : Bool) (q : Nibble) : (s.skipIf c).keyDown q = s.keyDown q := by cases c <;> rfl
@[simp] theorem State.skipIf_indexAddr (c : Bool) (m : Nat) : (s.skipIf c).indexAddr m = s.indexAddr m := by cases c <;> rfl

end Sys2Proof.Machine
end

