-- ==== Sys2Proof/Laws/Ops.lean ====
section
/-! SUPPORT. What each shared operation does, said once: registers, stack, memory, keys, grids, the canonical form. -/

namespace Sys2Proof.Machine

/-! Registers. -/

theorem State.getV_setV (s : State) (r : Nibble) (b : Byte) (q : Nibble) :
    (s.setV r b).getV q = if r = q then b else s.getV q := by
  simp only [State.getV, State.setV_v, Vector.getElem_set, BitVec.toNat_inj]

@[simp] theorem State.getV_setV_self (s : State) (r : Nibble) (b : Byte) : (s.setV r b).getV r = b := by
  simp [State.getV_setV]

theorem State.getV_setV_ne (s : State) {r q : Nibble} (b : Byte) (h : q ≠ r) : (s.setV r b).getV q = s.getV q := by
  rw [State.getV_setV, if_neg fun e => h e.symm]

theorem State.getV_setFlag (s : State) (c : Bool) (q : Nibble) :
    (s.setFlag c).getV q = if flagReg = q then flagByte c else s.getV q := State.getV_setV s flagReg _ q

/-- The flag is written after the result, so it is what VF holds (42_alu.md R120). -/
theorem State.getV_setVFlag (s : State) (r : Nibble) (b : Byte) (c : Bool) (q : Nibble) :
    (s.setVFlag r b c).getV q = if flagReg = q then flagByte c else if r = q then b else s.getV q := by
  simp only [State.setVFlag, State.getV_setFlag, State.getV_setV]

/-- Registers loaded from memory: V0 to V(n-1), the others as before (43_index_memory.md R145). -/
theorem State.getV_loadRegs (s : State) (n : Nat) (hn : n ≤ 16) (q : Nibble) :
    (s.loadRegs n).getV q = if q.toNat < n then s.readByte (s.indexAddr q.toNat) else s.getV q := by
  induction n with
  | zero => simp [State.loadRegs]
  | succ n ih =>
    rw [State.loadRegs, State.getV_setV, ih (by omega)]
    have hq : BitVec.ofNat 4 n = q ↔ q.toNat = n := by
      rw [← BitVec.toNat_inj, BitVec.toNat_ofNat, Nat.mod_eq_of_lt (by omega)]
      exact eq_comm
    by_cases h : q.toNat = n
    · rw [if_pos (hq.2 h), if_pos (by omega), h]
    · rw [if_neg (fun e => h (hq.1 e))]
      have h2 : q.toNat < n ↔ q.toNat < n + 1 := by omega
      simp only [h2]

/-- Loading registers changes nothing but the registers. -/
theorem State.loadRegs_eq (s : State) (n : Nat) : s.loadRegs n = { s with v := (s.loadRegs n).v } := by
  induction n with
  | zero => rfl
  | succ n ih =>
    rw [State.loadRegs, State.setV, ih]

@[simp] theorem State.loadRegs_params (s : State) (n : Nat) : (s.loadRegs n).params = s.params := by rw [State.loadRegs_eq]
@[simp] theorem State.loadRegs_pc (s : State) (n : Nat) : (s.loadRegs n).pc = s.pc := by rw [State.loadRegs_eq]
@[simp] theorem State.loadRegs_i (s : State) (n : Nat) : (s.loadRegs n).i = s.i := by rw [State.loadRegs_eq]
@[simp] theorem State.loadRegs_sp (s : State) (n : Nat) : (s.loadRegs n).sp = s.sp := by rw [State.loadRegs_eq]
@[simp] theorem State.loadRegs_stack (s : State) (n : Nat) : (s.loadRegs n).stack = s.stack := by rw [State.loadRegs_eq]
@[simp] theorem State.loadRegs_dt (s : State) (n : Nat) : (s.loadRegs n).dt = s.dt := by rw [State.loadRegs_eq]
@[simp] theorem State.loadRegs_st (s : State) (n : Nat) : (s.loadRegs n).st = s.st := by rw [State.loadRegs_eq]
@[simp] theorem State.loadRegs_keys (s : State) (n : Nat) : (s.loadRegs n).keys = s.keys := by rw [State.loadRegs_eq]
@[simp] theorem State.loadRegs_waiting (s : State) (n : Nat) : (s.loadRegs n).waiting = s.waiting := by rw [State.loadRegs_eq]
@[simp] theorem State.loadRegs_received (s : State) (n : Nat) : (s.loadRegs n).received = s.received := by rw [State.loadRegs_eq]
@[simp] theorem State.loadRegs_latchedKey (s : State) (n : Nat) : (s.loadRegs n).latchedKey = s.latchedKey := by rw [State.loadRegs_eq]
@[simp] theorem State.loadRegs_fb (s : State) (n : Nat) : (s.loadRegs n).fb = s.fb := by rw [State.loadRegs_eq]
@[simp] theorem State.loadRegs_fbDirty (s : State) (n : Nat) : (s.loadRegs n).fbDirty = s.fbDirty := by rw [State.loadRegs_eq]
@[simp] theorem State.loadRegs_out (s : State) (n : Nat) : (s.loadRegs n).out = s.out := by rw [State.loadRegs_eq]
@[simp] theorem State.loadRegs_outDirty (s : State) (n : Nat) : (s.loadRegs n).outDirty = s.outDirty := by rw [State.loadRegs_eq]
@[simp] theorem State.loadRegs_filterOn (s : State) (n : Nat) : (s.loadRegs n).filterOn = s.filterOn := by rw [State.loadRegs_eq]
@[simp] theorem State.loadRegs_fault (s : State) (n : Nat) : (s.loadRegs n).fault = s.fault := by rw [State.loadRegs_eq]
@[simp] theorem State.loadRegs_mem (s : State) (n : Nat) : (s.loadRegs n).mem = s.mem := by rw [State.loadRegs_eq]
@[simp] theorem State.loadRegs_draws (s : State) (n : Nat) : (s.loadRegs n).draws = s.draws := by rw [State.loadRegs_eq]
@[simp] theorem State.loadRegs_stackAt (s : State) (n : Nat) (j : Nat) : (s.loadRegs n).stackAt j = s.stackAt j := by
  rw [State.loadRegs_eq]; rfl
@[simp] theorem State.loadRegs_readByte (s : State) (n : Nat) (m : Nat) : (s.loadRegs n).readByte m = s.readByte m := by
  rw [State.loadRegs_eq]; rfl
@[simp] theorem State.loadRegs_pixel (s : State) (n : Nat) (px py : Nat) : (s.loadRegs n).pixel px py = s.pixel px py := by
  rw [State.loadRegs_eq]; rfl
@[simp] theorem State.loadRegs_outPixel (s : State) (n : Nat) (px py : Nat) : (s.loadRegs n).outPixel px py = s.outPixel px py := by
  rw [State.loadRegs_eq]; rfl
@[simp] theorem State.loadRegs_keyDown (s : State) (n : Nat) (q : Nibble) : (s.loadRegs n).keyDown q = s.keyDown q := by
  rw [State.loadRegs_eq]; rfl
@[simp] theorem State.loadRegs_indexAddr (s : State) (n : Nat) (m : Nat) : (s.loadRegs n).indexAddr m = s.indexAddr m := by
  rw [State.loadRegs_eq]; rfl

/-! Stack. -/

theorem State.stackAt_push (s : State) (hs : SparseSorted s.stack) (a : Word) (j : Nat) :
    (s.push a).stackAt j = if j = s.sp then a else s.stackAt j :=
  sparseGet_set _ _ hs _ _ _

/-! Memory. -/

theorem State.readByte_writeByte (s : State) (hs : SparseSorted s.mem) (a : Nat) (ha : a < Config.memSize) (b : Byte)
    (j : Nat) : (s.writeByte a b).readByte j = if j = a then b else s.readByte j := by
  simp only [State.readByte, State.writeByte_mem, memWrite, if_pos ha, sparseGet_set _ _ hs]

theorem State.readByte_writeBytes (s : State) (hs : SparseSorted s.mem) (a : Nat) (bs : List Byte)
    (ha : a + bs.length ≤ Config.memSize) (j : Nat) : (s.writeBytes a bs).readByte j =
      if a ≤ j ∧ j < a + bs.length then bs.getD (j - a) 0x00#8 else s.readByte j := by
  simp only [State.readByte, State.writeBytes_mem, memWriteList, if_pos ha, sparseGet_writeList _ _ _ hs]

/-- Every byte write keeps the memory's canonical form. -/
theorem Memory.wf_memWrite {m : Memory} (hm : Memory.wf m) (a : Nat) (b : Byte) : Memory.wf (memWrite m a b) := by
  unfold memWrite
  split
  · rename_i ha; exact sparseSet_wf hm ha b
  · exact hm

/-- Every write of a list keeps the memory's canonical form. -/
theorem Memory.wf_memWriteList {m : Memory} (hm : Memory.wf m) (a : Nat) (bs : List Byte) :
    Memory.wf (memWriteList m a bs) := by
  unfold memWriteList
  split
  · rename_i ha; exact sparseWriteList_wf bs hm ha
  · exact hm

/-- The memory after reset has the canonical form. -/
theorem Memory.wf_reset : Memory.wf State.reset.mem := sparseWf_nil _ _

/-! Grids. -/

/-- Row-major positions are distinct for distinct columns and rows. -/
theorem gridKey_inj {w x y x' y' : Nat} (hx : x < w) (hx' : x' < w) :
    gridKey w x y = gridKey w x' y' ↔ x = x' ∧ y = y' := by
  constructor
  · intro h
    unfold gridKey at h
    have hw : 0 < w := by omega
    have h1 : x = x' := by
      have := congrArg (· % w) h
      simpa only [Nat.add_comm _ x, Nat.add_comm _ x', Nat.add_mul_mod_self_right, Nat.mod_eq_of_lt hx,
        Nat.mod_eq_of_lt hx'] using this
    have h2 : y * w = y' * w := by omega
    exact ⟨h1, Nat.eq_of_mul_eq_mul_right hw h2⟩
  · rintro ⟨rfl, rfl⟩; rfl

/-- A position inside the grid is below its number of cells. -/
theorem gridKey_lt {w h x y : Nat} (hx : x < w) (hy : y < h) : gridKey w x y < w * h := by
  unfold gridKey
  calc y * w + x < y * w + w := by omega
    _ = (y + 1) * w := (Nat.succ_mul y w).symm
    _ ≤ h * w := Nat.mul_le_mul_right w hy
    _ = w * h := Nat.mul_comm h w

/-- A pixel write keeps the grid's canonical form. -/
theorem gridWrite_wf (p : Config.Params) {g : Grid} (hg : SparseWf 0x00#8 (p.fbW * p.fbH) g) (x y : Nat) (b : Byte) :
    SparseWf 0x00#8 (p.fbW * p.fbH) (gridWrite p g x y b) := by
  unfold gridWrite
  split
  · rename_i h
    simp only [inFrame, decide_eq_true_eq] at h
    exact sparseSet_wf hg (gridKey_lt h.1 h.2) b
  · exact hg

/-! Keys. -/

theorem State.keyDown_setKey (s : State) (k : Nibble) (c : Bool) (q : Nibble) :
    (s.setKey k c).keyDown q = if k = q then c else s.keyDown q := by
  simp only [State.keyDown, State.setKey_keys, Vector.getElem_set, BitVec.toNat_inj]

/-! The latch after FX0A. -/

/-- Under R193's reading FX0A leaves `latched_key` and the free values alone (45_keyboard_timers.md R193). -/
theorem State.settleLatch_of_kept (s : State) (h : s.params.latch = .kept) : s.settleLatch = s := by
  simp only [State.settleLatch, h]

/-- Under R29's reading FX0A writes a free value to `latched_key` (10_state.md R29). -/
theorem State.settleLatch_of_written (s : State) (h : s.params.latch = .written) :
    s.settleLatch = { s with latchedKey := Config.freeLatchedKey s.draws, draws := s.draws + 1 } := by
  simp only [State.settleLatch, h]

/-! Checks, as plain arithmetic. -/

/-- What a fetch needs (20_memory.md R57). -/
theorem State.fetchable_iff (s : State) : s.fetchable = true ↔ s.pc.toNat % 2 = 0 ∧ s.pc.toNat + 1 < 0x1000 :=
  decide_eq_true_iff

/-- What an access through `I` needs (20_memory.md R55). -/
theorem State.reaches_iff (s : State) (k : Nat) : s.reaches k = true ↔ s.i.toNat + k < 0x1000 := decide_eq_true_iff

/-- When a sprite lies outside the memory (44_display.md R161). -/
theorem State.spriteOutside_iff (s : State) (n : Nat) :
    s.spriteOutside n = true ↔ 0 < n ∧ 0x1000 ≤ s.i.toNat + n - 1 := decide_eq_true_iff

/-- When a pixel lies in the frame (44_display.md R171). -/
theorem inFrame_iff (p : Config.Params) (x y : Nat) : inFrame p x y = true ↔ x < p.fbW ∧ y < p.fbH := decide_eq_true_iff

/-- A register value that names a key (45_keyboard_timers.md R190). -/
theorem keyOf_eq_some (b : Byte) (k : Nibble) : keyOf b = some k ↔ b.toNat = k.toNat := by
  unfold keyOf
  split
  · constructor
    · intro h; cases h
    · intro h; omega
  · rw [Option.some.injEq, ← BitVec.toNat_inj, BitVec.toNat_setWidth]; omega

/-- A register value above every key id (45_keyboard_timers.md R190). -/
theorem keyOf_eq_none (b : Byte) : keyOf b = none ↔ 15 < b.toNat := by
  unfold keyOf
  split <;> simp_all

/-! A faulted block. -/

/-- An operation on a faulted block changes nothing (60_exceptions.md R214). -/
theorem State.unlessFaulted_of_fault (s : State) (f : State → State) (h : s.fault ≠ none) : s.unlessFaulted f = s := by
  simp [State.unlessFaulted, Option.isSome_iff_ne_none, h]

theorem State.unlessFaulted_of_safe (s : State) (f : State → State) (h : s.fault = none) : s.unlessFaulted f = f s := by
  simp [State.unlessFaulted, h]

end Sys2Proof.Machine
end

