-- ==== Sys2Proof/Laws/Display.lean ====
section
/-! SUPPORT. What drawing a sprite, one filter pass and the placing of a program do, said once each. -/

namespace Sys2Proof.Machine

/-- The pixel (x, y) of a grid. -/
abbrev gridPixel (p : Config.Params) (g : Grid) (x y : Nat) : Byte := sparseGet 0x00#8 g (gridKey p.fbW x y)

/-- A pixel write is read back, and every other pixel of the frame stays. -/
theorem gridPixel_gridWrite (p : Config.Params) {g : Grid} (hg : SparseWf 0x00#8 (p.fbW * p.fbH) g) {x y px py : Nat}
    (b : Byte) (hx : px < p.fbW) (hy : py < p.fbH) :
    gridPixel p (gridWrite p g x y b) px py = if px = x ∧ py = y then b else gridPixel p g px py := by
  unfold gridWrite
  split
  · rename_i h
    rw [inFrame_iff] at h
    simp only [gridPixel, sparseGet_set _ _ hg.1, gridKey_inj hx h.1]
  · rename_i h
    rw [inFrame_iff] at h
    rw [if_neg]
    rintro ⟨rfl, rfl⟩
    exact h ⟨hx, hy⟩

/-! Drawing. -/

/-- `c'` comes from `c` by toggling exactly the pixels of the frame in `cov`, and its flag is set as well when one of
them collides (44_display.md R165, R166). -/
structure Draws (p : Config.Params) (cov : Nat → Nat → Prop) (c c' : Canvas) : Prop where
  wf : SparseWf 0x00#8 (p.fbW * p.fbH) c'.grid
  on : ∀ px py, px < p.fbW → py < p.fbH → cov px py → gridPixel p c'.grid px py = gridPixel p c.grid px py ^^^ 0xFF#8
  off : ∀ px py, px < p.fbW → py < p.fbH → ¬ cov px py → gridPixel p c'.grid px py = gridPixel p c.grid px py
  hit : c'.hit = true ↔ c.hit = true ∨ ∃ px py, px < p.fbW ∧ py < p.fbH ∧ cov px py ∧
    pixelCollides p.collision (gridPixel p c.grid px py) = true

/-- Drawing nothing. -/
theorem Draws.none (p : Config.Params) {c : Canvas} (hc : SparseWf 0x00#8 (p.fbW * p.fbH) c.grid)
    {cov : Nat → Nat → Prop} (h : ∀ px py, ¬ cov px py) : Draws p cov c c where
  wf := hc
  on px py _ _ hp := absurd hp (h px py)
  off _ _ _ _ _ := rfl
  hit := by simp [h]

/-- Drawing two disjoint sets of pixels one after the other draws both. -/
theorem Draws.trans {p : Config.Params} {cov cov' both : Nat → Nat → Prop} {c d e : Canvas} (h : Draws p cov c d)
    (h' : Draws p cov' d e) (hb : ∀ px py, both px py ↔ cov px py ∨ cov' px py)
    (hd : ∀ px py, cov px py → ¬ cov' px py) : Draws p both c e where
  wf := h'.wf
  on px py hx hy hp := by
    rcases (hb px py).1 hp with hp | hp
    · rw [h'.off px py hx hy (hd _ _ hp), h.on px py hx hy hp]
    · rw [h'.on px py hx hy hp, h.off px py hx hy fun hq => hd _ _ hq hp]
  off px py hx hy hp := by
    rw [hb, not_or] at hp
    rw [h'.off px py hx hy hp.2, h.off px py hx hy hp.1]
  hit := by
    rw [h'.hit, h.hit, or_assoc]
    refine or_congr_right ⟨?_, ?_⟩
    · rintro (⟨px, py, hx, hy, hp, hq⟩ | ⟨px, py, hx, hy, hp, hq⟩)
      · exact ⟨px, py, hx, hy, (hb _ _).2 (.inl hp), hq⟩
      · rw [h.off px py hx hy fun hr => hd _ _ hr hp] at hq
        exact ⟨px, py, hx, hy, (hb _ _).2 (.inr hp), hq⟩
    · rintro ⟨px, py, hx, hy, hp, hq⟩
      rcases (hb px py).1 hp with hp | hp
      · exact .inl ⟨px, py, hx, hy, hp, hq⟩
      · refine .inr ⟨px, py, hx, hy, hp, ?_⟩
        rwa [h.off px py hx hy fun hr => hd _ _ hr hp]

/-- Toggling one pixel draws that pixel. -/
theorem Draws.toggle (p : Config.Params) {c : Canvas} (hc : SparseWf 0x00#8 (p.fbW * p.fbH) c.grid) (x y : Nat) :
    Draws p (fun px py => px = x ∧ py = y) c (togglePixel p x y c) := by
  unfold togglePixel
  split
  · rename_i h
    rw [inFrame_iff] at h
    refine ⟨gridWrite_wf p hc _ _ _, ?_, ?_, ?_⟩
    · rintro px py hx hy ⟨rfl, rfl⟩
      rw [gridPixel_gridWrite p hc _ hx hy, if_pos ⟨rfl, rfl⟩]
    · intro px py hx hy hp
      rw [gridPixel_gridWrite p hc _ hx hy, if_neg hp]
    · simp only [Bool.or_eq_true]
      refine or_congr_right ⟨fun hq => ⟨x, y, h.1, h.2, ⟨rfl, rfl⟩, hq⟩, ?_⟩
      rintro ⟨px, py, -, -, ⟨rfl, rfl⟩, hq⟩
      exact hq
  · rename_i h
    rw [inFrame_iff] at h
    refine ⟨hc, ?_, fun _ _ _ _ _ => rfl, ?_⟩
    · rintro px py hx hy ⟨rfl, rfl⟩
      exact absurd ⟨hx, hy⟩ h
    · refine ⟨.inl, ?_⟩
      rintro (hq | ⟨px, py, hx, hy, ⟨rfl, rfl⟩, -⟩)
      · exact hq
      · exact absurd ⟨hx, hy⟩ h

/-- The coordinates of fewer than 256 steps are distinct. -/
theorem wrapCoord_inj (b : Byte) {j k : Nat} (hj : j < 256) (hk : k < 256) (h : wrapCoord b j = wrapCoord b k) : j = k := by
  unfold wrapCoord at h
  have := b.isLt
  omega

/-- The first `n` columns of a row draw the pixels under its set bits. -/
theorem drawColumns_draws (p : Config.Params) (row x0 : Byte) (y : Nat) (n : Nat) (hn : n ≤ 8) {c : Canvas}
    (hc : SparseWf 0x00#8 (p.fbW * p.fbH) c.grid) :
    Draws p (fun px py => ∃ k, k < n ∧ columnBit row k = true ∧ px = wrapCoord x0 k ∧ py = y) c
      (drawColumns p row x0 y n c) := by
  induction n with
  | zero => exact Draws.none p hc (by simp)
  | succ n ih =>
    have h := ih (by omega)
    rw [drawColumns]
    split
    · rename_i hb
      refine h.trans (Draws.toggle p h.wf _ _) ?_ ?_
      · intro px py
        constructor
        · rintro ⟨k, hk, hq, rfl, rfl⟩
          rcases Nat.lt_succ_iff_lt_or_eq.1 hk with hk | rfl
          · exact .inl ⟨k, hk, hq, rfl, rfl⟩
          · exact .inr ⟨rfl, rfl⟩
        · rintro (⟨k, hk, hq, rfl, rfl⟩ | ⟨rfl, rfl⟩)
          · exact ⟨k, by omega, hq, rfl, rfl⟩
          · exact ⟨n, by omega, hb, rfl, rfl⟩
      · rintro px py ⟨k, hk, -, rfl, -⟩ ⟨he, -⟩
        have := wrapCoord_inj x0 (by omega) (by omega) he
        omega
    · rename_i hb
      refine h.trans (Draws.none p h.wf (cov := fun _ _ => False) (by simp)) ?_ (by simp)
      intro px py
      simp only [or_false]
      constructor
      · rintro ⟨k, hk, hq, rfl, rfl⟩
        rcases Nat.lt_succ_iff_lt_or_eq.1 hk with hk | rfl
        · exact ⟨k, hk, hq, rfl, rfl⟩
        · exact absurd hq hb
      · rintro ⟨k, hk, hq, rfl, rfl⟩
        exact ⟨k, by omega, hq, rfl, rfl⟩

/-- The first `n` rows of a sprite draw the pixels it covers. -/
theorem drawRows_draws (s : State) (x0 y0 : Byte) (n : Nat) (hn : n ≤ 16) {c : Canvas}
    (hc : SparseWf 0x00#8 (s.params.fbW * s.params.fbH) c.grid) :
    Draws s.params (fun px py => ∃ r k, r < n ∧ k < 8 ∧ columnBit (s.readByte (s.indexAddr r)) k = true ∧
      px = wrapCoord x0 k ∧ py = wrapCoord y0 r) c (drawRows s x0 y0 n c) := by
  induction n with
  | zero => exact Draws.none _ hc (by simp)
  | succ n ih =>
    have h := ih (by omega)
    rw [drawRows]
    refine h.trans (drawColumns_draws s.params _ x0 _ 8 (Nat.le_refl 8) h.wf) ?_ ?_
    · intro px py
      constructor
      · rintro ⟨r, k, hr, hk, hq, rfl, rfl⟩
        rcases Nat.lt_succ_iff_lt_or_eq.1 hr with hr | rfl
        · exact .inl ⟨r, k, hr, hk, hq, rfl, rfl⟩
        · exact .inr ⟨k, hk, hq, rfl, rfl⟩
      · rintro (⟨r, k, hr, hk, hq, rfl, rfl⟩ | ⟨k, hk, hq, rfl, rfl⟩)
        · exact ⟨r, k, by omega, hk, hq, rfl, rfl⟩
        · exact ⟨n, k, by omega, hk, hq, rfl, rfl⟩
    · rintro px py ⟨r, k, hr, -, -, -, rfl⟩ ⟨k', -, -, -, he⟩
      have := wrapCoord_inj y0 (by omega) (by omega) he
      omega

/-- Drawing a sprite toggles what it covers, and reports a collision exactly when a covered pixel collides
(44_display.md R161). -/
theorem State.drawSprite_draws (s : State) (x0 y0 : Byte) (n : Nat) (hn : n ≤ 16)
    (hf : SparseWf 0x00#8 (s.params.fbW * s.params.fbH) s.fb) :
    Draws s.params (fun px py => ∃ r k, r < n ∧ k < 8 ∧ columnBit (s.readByte (s.indexAddr r)) k = true ∧
      px = wrapCoord x0 k ∧ py = wrapCoord y0 r) { grid := s.fb, hit := false } (s.drawSprite x0 y0 n) :=
  drawRows_draws s x0 y0 n hn hf

/-! The filter. -/

/-- One pass on a live block writes every output cell by the filter's rule (44_display.md R181). -/
theorem State.outPixel_filterPass (s : State) (hs : s.fault = none) {x y : Nat} (hx : x < s.params.outW)
    (hy : y < s.params.outH) : s.filterPass.outPixel x y = s.filterCell x y := by
  have h : s.filterPass = { s with out := s.filterOutput, outDirty := true } := s.unlessFaulted_of_safe _ hs
  have hw : 0 < s.params.outW := by omega
  have hm : gridKey s.params.outW x y % s.params.outW = x := by
    rw [gridKey, Nat.add_comm, Nat.add_mul_mod_self_right, Nat.mod_eq_of_lt hx]
  have hd : gridKey s.params.outW x y / s.params.outW = y := by
    rw [gridKey, Nat.add_comm, Nat.add_mul_div_right _ _ hw, Nat.div_eq_of_lt hx, Nat.zero_add]
  rw [h]
  simp only [State.outPixel, State.filterOutput, sparseGet_ofFn, if_pos (gridKey_lt hx hy), hm, hd]

/-! The load. -/

/-- `MEM_SIZE - 0x200` (70_reset_and_hazards.md R242). -/
theorem loadLimit_eq : Config.loadLimit = 3584 := rfl

/-- Where the font and a program of a load stand, and what stays (70_reset_and_hazards.md R241). -/
theorem State.readByte_placeProgram (s : State) (hs : Memory.wf s.mem) (hf : s.params.font.length = 80)
    (bytes : List Byte) (hb : bytes.length ≤ 3584) (j : Nat) :
    (s.placeProgram bytes).readByte j =
      if 0x200 ≤ j ∧ j < 0x200 + bytes.length then bytes.getD (j - 0x200) 0x00#8
      else if j < 80 then s.params.font.getD j 0x00#8 else s.readByte j := by
  have h1 := Memory.wf_memWriteList hs 0 s.params.font
  rw [State.placeProgram, Config.entry, State.readByte_writeBytes _ h1.1 _ _ (by simp only [Config.memSize]; omega),
    State.readByte_writeBytes _ hs.1 _ _ (by rw [hf]; simp only [Config.memSize]; omega)]
  simp only [hf, Nat.zero_le, true_and, Nat.zero_add, Nat.sub_zero]

end Sys2Proof.Machine
end

