-- ==== Sys2Proof/Laws/PerInstr.lean ====
section
/-! SUPPORT. Facts stated per instruction: the encoded word lies in the instruction's own row of the opcode map. -/

namespace Sys2Proof.Laws

/-- The word of an instruction matches its own row of the opcode map (30_encoding.md R79). -/
def RowMatch.Statement (i : Instr) : Prop := ∃ r, opcodeRows[rowIndex i]? = some r ∧ r.matchesWord (encode i) = true

theorem RowMatch.cls : RowMatch.Statement (.cls) := ⟨⟨0xFFFF#16, 0x00E0#16⟩, rfl, rfl⟩

theorem RowMatch.ret : RowMatch.Statement (.ret) := ⟨⟨0xFFFF#16, 0x00EE#16⟩, rfl, rfl⟩

theorem RowMatch.jp (nnn : Addr12) : RowMatch.Statement (.jp nnn) := by
  refine ⟨⟨0xF000#16, 0x1000#16⟩, rfl, (matchesWord_iff _ _).2 ?_⟩
  simp only [encode, fieldClass_addrWord]
  simp [fieldClass, fieldX, fieldY, fieldN]

theorem RowMatch.call (nnn : Addr12) : RowMatch.Statement (.call nnn) := by
  refine ⟨⟨0xF000#16, 0x2000#16⟩, rfl, (matchesWord_iff _ _).2 ?_⟩
  simp only [encode, fieldClass_addrWord]
  simp [fieldClass, fieldX, fieldY, fieldN]

theorem RowMatch.seImm (x : Nibble) (nn : Byte) : RowMatch.Statement (.seImm x nn) := by
  refine ⟨⟨0xF000#16, 0x3000#16⟩, rfl, (matchesWord_iff _ _).2 ?_⟩
  simp only [encode, fieldClass_byteWord]
  simp [fieldClass, fieldX, fieldY, fieldN]

theorem RowMatch.sneImm (x : Nibble) (nn : Byte) : RowMatch.Statement (.sneImm x nn) := by
  refine ⟨⟨0xF000#16, 0x4000#16⟩, rfl, (matchesWord_iff _ _).2 ?_⟩
  simp only [encode, fieldClass_byteWord]
  simp [fieldClass, fieldX, fieldY, fieldN]

theorem RowMatch.seReg (x y : Nibble) : RowMatch.Statement (.seReg x y) := by
  refine ⟨⟨0xF00F#16, 0x5000#16⟩, rfl, (matchesWord_iff _ _).2 ?_⟩
  simp only [encode, fieldClass_nibbleWord, fieldN_nibbleWord]
  simp [fieldClass, fieldX, fieldY, fieldN]

theorem RowMatch.sneReg (x y : Nibble) : RowMatch.Statement (.sneReg x y) := by
  refine ⟨⟨0xF00F#16, 0x9000#16⟩, rfl, (matchesWord_iff _ _).2 ?_⟩
  simp only [encode, fieldClass_nibbleWord, fieldN_nibbleWord]
  simp [fieldClass, fieldX, fieldY, fieldN]

theorem RowMatch.ldImm (x : Nibble) (nn : Byte) : RowMatch.Statement (.ldImm x nn) := by
  refine ⟨⟨0xF000#16, 0x6000#16⟩, rfl, (matchesWord_iff _ _).2 ?_⟩
  simp only [encode, fieldClass_byteWord]
  simp [fieldClass, fieldX, fieldY, fieldN]

theorem RowMatch.addImm (x : Nibble) (nn : Byte) : RowMatch.Statement (.addImm x nn) := by
  refine ⟨⟨0xF000#16, 0x7000#16⟩, rfl, (matchesWord_iff _ _).2 ?_⟩
  simp only [encode, fieldClass_byteWord]
  simp [fieldClass, fieldX, fieldY, fieldN]

theorem RowMatch.ldReg (x y : Nibble) : RowMatch.Statement (.ldReg x y) := by
  refine ⟨⟨0xF00F#16, 0x8000#16⟩, rfl, (matchesWord_iff _ _).2 ?_⟩
  simp only [encode, fieldClass_nibbleWord, fieldN_nibbleWord]
  simp [fieldClass, fieldX, fieldY, fieldN]

theorem RowMatch.orReg (x y : Nibble) : RowMatch.Statement (.orReg x y) := by
  refine ⟨⟨0xF00F#16, 0x8001#16⟩, rfl, (matchesWord_iff _ _).2 ?_⟩
  simp only [encode, fieldClass_nibbleWord, fieldN_nibbleWord]
  simp [fieldClass, fieldX, fieldY, fieldN]

theorem RowMatch.andReg (x y : Nibble) : RowMatch.Statement (.andReg x y) := by
  refine ⟨⟨0xF00F#16, 0x8002#16⟩, rfl, (matchesWord_iff _ _).2 ?_⟩
  simp only [encode, fieldClass_nibbleWord, fieldN_nibbleWord]
  simp [fieldClass, fieldX, fieldY, fieldN]

theorem RowMatch.xorReg (x y : Nibble) : RowMatch.Statement (.xorReg x y) := by
  refine ⟨⟨0xF00F#16, 0x8003#16⟩, rfl, (matchesWord_iff _ _).2 ?_⟩
  simp only [encode, fieldClass_nibbleWord, fieldN_nibbleWord]
  simp [fieldClass, fieldX, fieldY, fieldN]

theorem RowMatch.addReg (x y : Nibble) : RowMatch.Statement (.addReg x y) := by
  refine ⟨⟨0xF00F#16, 0x8004#16⟩, rfl, (matchesWord_iff _ _).2 ?_⟩
  simp only [encode, fieldClass_nibbleWord, fieldN_nibbleWord]
  simp [fieldClass, fieldX, fieldY, fieldN]

theorem RowMatch.sub (x y : Nibble) : RowMatch.Statement (.sub x y) := by
  refine ⟨⟨0xF00F#16, 0x8005#16⟩, rfl, (matchesWord_iff _ _).2 ?_⟩
  simp only [encode, fieldClass_nibbleWord, fieldN_nibbleWord]
  simp [fieldClass, fieldX, fieldY, fieldN]

theorem RowMatch.shr (x y : Nibble) : RowMatch.Statement (.shr x y) := by
  refine ⟨⟨0xF00F#16, 0x8006#16⟩, rfl, (matchesWord_iff _ _).2 ?_⟩
  simp only [encode, fieldClass_nibbleWord, fieldN_nibbleWord]
  simp [fieldClass, fieldX, fieldY, fieldN]

theorem RowMatch.subn (x y : Nibble) : RowMatch.Statement (.subn x y) := by
  refine ⟨⟨0xF00F#16, 0x8007#16⟩, rfl, (matchesWord_iff _ _).2 ?_⟩
  simp only [encode, fieldClass_nibbleWord, fieldN_nibbleWord]
  simp [fieldClass, fieldX, fieldY, fieldN]

theorem RowMatch.shl (x y : Nibble) : RowMatch.Statement (.shl x y) := by
  refine ⟨⟨0xF00F#16, 0x800E#16⟩, rfl, (matchesWord_iff _ _).2 ?_⟩
  simp only [encode, fieldClass_nibbleWord, fieldN_nibbleWord]
  simp [fieldClass, fieldX, fieldY, fieldN]

theorem RowMatch.ldI (nnn : Addr12) : RowMatch.Statement (.ldI nnn) := by
  refine ⟨⟨0xF000#16, 0xA000#16⟩, rfl, (matchesWord_iff _ _).2 ?_⟩
  simp only [encode, fieldClass_addrWord]
  simp [fieldClass, fieldX, fieldY, fieldN]

theorem RowMatch.jpV0 (nnn : Addr12) : RowMatch.Statement (.jpV0 nnn) := by
  refine ⟨⟨0xF000#16, 0xB000#16⟩, rfl, (matchesWord_iff _ _).2 ?_⟩
  simp only [encode, fieldClass_addrWord]
  simp [fieldClass, fieldX, fieldY, fieldN]

theorem RowMatch.rnd (x : Nibble) (nn : Byte) : RowMatch.Statement (.rnd x nn) := by
  refine ⟨⟨0xF000#16, 0xC000#16⟩, rfl, (matchesWord_iff _ _).2 ?_⟩
  simp only [encode, fieldClass_byteWord]
  simp [fieldClass, fieldX, fieldY, fieldN]

theorem RowMatch.drw (x y n : Nibble) : RowMatch.Statement (.drw x y n) := by
  refine ⟨⟨0xF000#16, 0xD000#16⟩, rfl, (matchesWord_iff _ _).2 ?_⟩
  simp only [encode, fieldClass_nibbleWord]
  simp [fieldClass, fieldX, fieldY, fieldN]

theorem RowMatch.skp (x : Nibble) : RowMatch.Statement (.skp x) := by
  refine ⟨⟨0xF0FF#16, 0xE09E#16⟩, rfl, (matchesWord_iff _ _).2 ?_⟩
  simp only [encode, fieldClass_byteWord, fieldX_byteWord, fieldY_byteWord, fieldN_byteWord]
  simp [fieldClass, fieldX, fieldY, fieldN]

theorem RowMatch.sknp (x : Nibble) : RowMatch.Statement (.sknp x) := by
  refine ⟨⟨0xF0FF#16, 0xE0A1#16⟩, rfl, (matchesWord_iff _ _).2 ?_⟩
  simp only [encode, fieldClass_byteWord, fieldX_byteWord, fieldY_byteWord, fieldN_byteWord]
  simp [fieldClass, fieldX, fieldY, fieldN]

theorem RowMatch.ldVxDT (x : Nibble) : RowMatch.Statement (.ldVxDT x) := by
  refine ⟨⟨0xF0FF#16, 0xF007#16⟩, rfl, (matchesWord_iff _ _).2 ?_⟩
  simp only [encode, fieldClass_byteWord, fieldX_byteWord, fieldY_byteWord, fieldN_byteWord]
  simp [fieldClass, fieldX, fieldY, fieldN]

theorem RowMatch.ldVxK (x : Nibble) : RowMatch.Statement (.ldVxK x) := by
  refine ⟨⟨0xF0FF#16, 0xF00A#16⟩, rfl, (matchesWord_iff _ _).2 ?_⟩
  simp only [encode, fieldClass_byteWord, fieldX_byteWord, fieldY_byteWord, fieldN_byteWord]
  simp [fieldClass, fieldX, fieldY, fieldN]

theorem RowMatch.ldDTVx (x : Nibble) : RowMatch.Statement (.ldDTVx x) := by
  refine ⟨⟨0xF0FF#16, 0xF015#16⟩, rfl, (matchesWord_iff _ _).2 ?_⟩
  simp only [encode, fieldClass_byteWord, fieldX_byteWord, fieldY_byteWord, fieldN_byteWord]
  simp [fieldClass, fieldX, fieldY, fieldN]

theorem RowMatch.ldSTVx (x : Nibble) : RowMatch.Statement (.ldSTVx x) := by
  refine ⟨⟨0xF0FF#16, 0xF018#16⟩, rfl, (matchesWord_iff _ _).2 ?_⟩
  simp only [encode, fieldClass_byteWord, fieldX_byteWord, fieldY_byteWord, fieldN_byteWord]
  simp [fieldClass, fieldX, fieldY, fieldN]

theorem RowMatch.addI (x : Nibble) : RowMatch.Statement (.addI x) := by
  refine ⟨⟨0xF0FF#16, 0xF01E#16⟩, rfl, (matchesWord_iff _ _).2 ?_⟩
  simp only [encode, fieldClass_byteWord, fieldX_byteWord, fieldY_byteWord, fieldN_byteWord]
  simp [fieldClass, fieldX, fieldY, fieldN]

theorem RowMatch.ldF (x : Nibble) : RowMatch.Statement (.ldF x) := by
  refine ⟨⟨0xF0FF#16, 0xF029#16⟩, rfl, (matchesWord_iff _ _).2 ?_⟩
  simp only [encode, fieldClass_byteWord, fieldX_byteWord, fieldY_byteWord, fieldN_byteWord]
  simp [fieldClass, fieldX, fieldY, fieldN]

theorem RowMatch.ldB (x : Nibble) : RowMatch.Statement (.ldB x) := by
  refine ⟨⟨0xF0FF#16, 0xF033#16⟩, rfl, (matchesWord_iff _ _).2 ?_⟩
  simp only [encode, fieldClass_byteWord, fieldX_byteWord, fieldY_byteWord, fieldN_byteWord]
  simp [fieldClass, fieldX, fieldY, fieldN]

theorem RowMatch.ldMemVx (x : Nibble) : RowMatch.Statement (.ldMemVx x) := by
  refine ⟨⟨0xF0FF#16, 0xF055#16⟩, rfl, (matchesWord_iff _ _).2 ?_⟩
  simp only [encode, fieldClass_byteWord, fieldX_byteWord, fieldY_byteWord, fieldN_byteWord]
  simp [fieldClass, fieldX, fieldY, fieldN]

theorem RowMatch.ldVxMem (x : Nibble) : RowMatch.Statement (.ldVxMem x) := by
  refine ⟨⟨0xF0FF#16, 0xF065#16⟩, rfl, (matchesWord_iff _ _).2 ?_⟩
  simp only [encode, fieldClass_byteWord, fieldX_byteWord, fieldY_byteWord, fieldN_byteWord]
  simp [fieldClass, fieldX, fieldY, fieldN]

end Sys2Proof.Laws
end

