-- ==== Sys2Proof/Laws/Session.lean ====
section
/-! SUPPORT. What an agent's operation does to the environment, said once: it acts on the block, is remembered, and a fault stops all agents. -/

namespace Sys2Proof.Machine

/-! The fields after a shutdown and after an operation. -/

@[simp] theorem Session.shutDown_block (e : Session) : e.shutDown.block = e.block := rfl
@[simp] theorem Session.shutDown_loaded (e : Session) : e.shutDown.loaded = e.loaded := rfl
@[simp] theorem Session.shutDown_started (e : Session) : e.shutDown.started = e.started := rfl
@[simp] theorem Session.shutDown_n1 (e : Session) : e.shutDown.n1 = true := rfl
@[simp] theorem Session.shutDown_n2 (e : Session) : e.shutDown.n2 = e.n2 := rfl
@[simp] theorem Session.shutDown_stopped (e : Session) : e.shutDown.stopped = true := rfl

/-- The final forced notification leaves no agent parked (60_exceptions.md R225). -/
theorem Session.shutDown_unparks (e : Session) : e.shutDown.filterParked = false := rfl

theorem Session.stopOnFault_of_fault {e : Session} (h : e.block.fault ≠ none) : e.stopOnFault = e.shutDown := by
  rw [Session.stopOnFault, if_pos (Option.isSome_iff_ne_none.2 h)]

theorem Session.stopOnFault_of_safe {e : Session} (h : e.block.fault = none) : e.stopOnFault = e := by
  simp [Session.stopOnFault, h]

@[simp] theorem Session.record_block (e : Session) (op : HostOp) (t : State) : (e.record op t).block = t := by
  unfold Session.record Session.stopOnFault
  split <;> rfl

@[simp] theorem Session.record_loaded (e : Session) (op : HostOp) (t : State) :
    (e.record op t).loaded = (e.loaded || op.isLoad) := by
  unfold Session.record Session.stopOnFault
  split <;> rfl

@[simp] theorem Session.record_started (e : Session) (op : HostOp) (t : State) :
    (e.record op t).started = (e.started || op.isStep) := by
  unfold Session.record Session.stopOnFault
  split <;> rfl

@[simp] theorem Session.record_n2 (e : Session) (op : HostOp) (t : State) : (e.record op t).n2 = e.n2 := by
  unfold Session.record Session.stopOnFault
  split <;> rfl

/-- The stop flag after an operation: a fault sets it, nothing clears it. -/
@[simp] theorem Session.record_stopped (e : Session) (op : HostOp) (t : State) :
    (e.record op t).stopped = (e.stopped || t.fault.isSome) := by
  unfold Session.record Session.stopOnFault
  split <;> simp_all

/-- The filter agent's slot after an operation: a fault forces a notification. -/
@[simp] theorem Session.record_n1 (e : Session) (op : HostOp) (t : State) :
    (e.record op t).n1 = (e.n1 || t.fault.isSome) := by
  unfold Session.record Session.stopOnFault
  split <;> simp_all

/-! The operation itself. -/

/-- What an operation that answers a next environment did: it was admitted, and it acted on the block. -/
theorem Session.perform_next {op : HostOp} {e f : Session} (h : e.perform op = .next f) :
    (e.stopped = false ∨ e.block.fault ≠ none) ∧ (op.isLoad = true → e.loaded = false ∧ e.started = false) ∧
    ∃ t, op.apply e.block = .next t ∧ f = e.record op t := by
  unfold Session.perform at h
  split at h
  · cases h
  · rename_i h1
    split at h
    · cases h
    · rename_i h2
      split at h <;> cases h
      rename_i t ht
      refine ⟨?_, ?_, t, ht, rfl⟩
      · cases hs : e.stopped <;> simp_all
      · intro hl
        simpa [hl] using h2

end Sys2Proof.Machine
end

