-- ==== Sys2Proof/Tests/Slice0.lean ====
section
/-! SUPPORT. Small tests: words written out bit by bit, the spec's vectors (95_test_vectors.md), ill-formed parameters. -/

namespace Sys2Proof.Machine.Tests

open Sys2Proof

/-! Ill-formed parameters are refused, one term per check of 00_scope.md R9. -/

theorem test_default_params_wellFormed : Config.Params.default.WellFormed := by decide
theorem test_no_stack_refused : ¬ { Config.Params.default with stackDepth := 0 }.WellFormed := by decide
theorem test_empty_frame_refused : ¬ { Config.Params.default with fbW := 0, outW := 0 }.WellFormed := by decide
theorem test_tall_frame_refused : ¬ { Config.Params.default with fbH := 257, outH := 514 }.WellFormed := by decide
theorem test_ratio_refused : ¬ { Config.Params.default with outW := 127 }.WellFormed := by decide
theorem test_short_font_refused : ¬ { Config.Params.default with font := Config.fontLow }.WellFormed := by decide
/-- X15: a block whose output is not twice its frame is not constructed (60_exceptions.md R216). -/
theorem test_bad_ratio_not_constructed :
    (match State.construct { Config.Params.default with outH := 32 } .zero with
      | .fault .configurationError => true | _ => false) = true := by decide

/-! Decoding: every constructor from a word written out from 30_encoding.md R78 and R79. -/

theorem test_decode_control :
    decode 0b0000000011100000#16 = .instr .cls ∧ decode 0b0000000011101110#16 = .instr .ret ∧
    decode 0b0001001000110100#16 = .instr (.jp 0x234#12) ∧ decode 0b0010001000000000#16 = .instr (.call 0x200#12) ∧
    decode 0b1011001100000001#16 = .instr (.jpV0 0x301#12) := by decide
theorem test_decode_skips :
    decode 0b0011001100010010#16 = .instr (.seImm 3#4 0x12#8) ∧ decode 0b0100001100010010#16 = .instr (.sneImm 3#4 0x12#8) ∧
    decode 0b0101000100100000#16 = .instr (.seReg 1#4 2#4) ∧ decode 0b1001000100100000#16 = .instr (.sneReg 1#4 2#4) ∧
    decode 0b1110001010011110#16 = .instr (.skp 2#4) ∧ decode 0b1110001010100001#16 = .instr (.sknp 2#4) := by decide
theorem test_decode_alu_first :
    decode 0b0110000011111111#16 = .instr (.ldImm 0#4 0xFF#8) ∧ decode 0b0111001000100000#16 = .instr (.addImm 2#4 0x20#8) ∧
    decode 0b1000000000010000#16 = .instr (.ldReg 0#4 1#4) ∧ decode 0b1000000000010001#16 = .instr (.orReg 0#4 1#4) ∧
    decode 0b1000000000010010#16 = .instr (.andReg 0#4 1#4) ∧ decode 0b1000000000010011#16 = .instr (.xorReg 0#4 1#4) := by
  decide
theorem test_decode_alu_second :
    decode 0b1000000000010100#16 = .instr (.addReg 0#4 1#4) ∧ decode 0b1000000000010101#16 = .instr (.sub 0#4 1#4) ∧
    decode 0b1000000100100110#16 = .instr (.shr 1#4 2#4) ∧ decode 0b1000000000010111#16 = .instr (.subn 0#4 1#4) ∧
    decode 0b1000000000011110#16 = .instr (.shl 0#4 1#4) ∧ decode 0b1100001100001111#16 = .instr (.rnd 3#4 0x0F#8) := by
  decide
theorem test_decode_index :
    decode 0b1010001011110000#16 = .instr (.ldI 0x2F0#12) ∧ decode 0b1111000100011110#16 = .instr (.addI 1#4) ∧
    decode 0b1111001000101001#16 = .instr (.ldF 2#4) ∧ decode 0b1111010100110011#16 = .instr (.ldB 5#4) ∧
    decode 0b1111001001010101#16 = .instr (.ldMemVx 2#4) ∧ decode 0b1111001001100101#16 = .instr (.ldVxMem 2#4) := by decide
theorem test_decode_draw_keys_timers :
    decode 0b1101000000010101#16 = .instr (.drw 0#4 1#4 5#4) ∧ decode 0b1111010000000111#16 = .instr (.ldVxDT 4#4) ∧
    decode 0b1111001100001010#16 = .instr (.ldVxK 3#4) ∧ decode 0b1111010000010101#16 = .instr (.ldDTVx 4#4) ∧
    decode 0b1111010000011000#16 = .instr (.ldSTVx 4#4) := by decide
/-- AL28, AL29, X1 to X6: illegal words (30_encoding.md R81). -/
theorem test_decode_illegal :
    decode 0x0000#16 = .unknown 0x0000#16 ∧ decode 0x0123#16 = .unknown 0x0123#16 ∧ decode 0x5121#16 = .unknown 0x5121#16 ∧
    decode 0x9121#16 = .unknown 0x9121#16 ∧ decode 0x8018#16 = .unknown 0x8018#16 ∧ decode 0x801F#16 = .unknown 0x801F#16 ∧
    decode 0xE0A2#16 = .unknown 0xE0A2#16 ∧ decode 0xF0FF#16 = .unknown 0xF0FF#16 := by decide
/-- Bytes are read high byte first, and a single byte is no instruction (20_memory.md R54, 30_encoding.md R70). -/
theorem test_decode_bytes :
    decodeBytes [0x60#8, 0xFF#8, 0x12#8] = .instr (.ldImm 0#4 0xFF#8) [0x12#8] ∧ decodeBytes [0x60#8] = .tooShort := by
  decide
theorem test_decode_table_word : decodeTableWord 16 0x8124 = some (.addReg 1#4 2#4) := by decide
theorem test_encode_words : encode (.drw 1#4 2#4 5#4) = 0xD125#16 ∧ encode (.ldMemVx 0xF#4) = 0xFF55#16 := by decide

/-! Helpers: a state from reset, and one step over a word placed at `pc`. -/

/-- The state one step over the word `w` leaves. -/
def stepOn (w : Nat) (s : State) : Option State :=
  match step (s.withFetchWord 16 w) with
  | .next t => some t
  | _ => none

/-- What a field reads after one step over the word `w`. -/
def after {α : Type} (w : Nat) (s : State) (f : State → α) : Option α := (stepOn w s).map f

/-- Reset with two registers set. -/
def withRegs (x : Nibble) (a : Byte) (y : Nibble) (b : Byte) : State := (State.reset.setV x a).setV y b

/-! Step and control transfer (95_test_vectors.md 2.1). -/

theorem test_jp : after 0x1234 State.reset (·.pc) = some 0x234#16 := by decide
theorem test_odd_pc_faults :
    after 0x1200 (State.reset.jump 0x201#16) (·.fault) = some (some ⟨.fetch, 0x201#16, none, none⟩) := by decide
theorem test_last_fetch_address : after 0x1200 (State.reset.jump 0xFFE#16) (·.pc) = some 0x200#16 := by decide
theorem test_call : after 0x2200 State.reset (fun s => (s.stackAt 0, s.sp, s.pc)) = some (0x202#16, 1, 0x200#16) := by
  decide
theorem test_call_overflow :
    after 0x2400 { State.reset with sp := 64 } (fun s => (s.fault, s.sp)) =
      some (some ⟨.stackOverflow, 0x200#16, some 0x2400#16, none⟩, 64) := by decide
theorem test_ret :
    after 0x00EE ((State.reset.push 0x202#16).jump 0x300#16) (fun s => (s.pc, s.sp, s.stackAt 0)) =
      some (0x202#16, 0, 0x202#16) := by decide
theorem test_ret_underflow :
    after 0x00EE State.reset (fun s => (s.fault, s.pc)) =
      some (some ⟨.stackUnderflow, 0x200#16, some 0x00EE#16, none⟩, 0x200#16) := by decide
/-- R108's pseudocode, by hand: 0xF01 + 0xFF = 0x1000 (the example's 0x1100 is a slip of the spec: log entry 12). -/
theorem test_jpV0_not_reduced : after 0xBF01 (State.reset.setV 0#4 0xFF#8) (·.pc) = some 0x1000#16 := by decide
theorem test_jpV0 : after 0xB300 (State.reset.setV 0#4 0x04#8) (·.pc) = some 0x304#16 := by decide
theorem test_seImm : after 0x3312 (State.reset.setV 3#4 0x12#8) (·.pc) = some 0x204#16 := by decide
theorem test_seImm_not : after 0x3312 (State.reset.setV 3#4 0x13#8) (·.pc) = some 0x202#16 := by decide
theorem test_sneImm : after 0x4312 State.reset (·.pc) = some 0x204#16 := by decide
theorem test_sneImm_not : after 0x4312 (State.reset.setV 3#4 0x12#8) (·.pc) = some 0x202#16 := by decide
theorem test_seReg : after 0x5120 (withRegs 1#4 7#8 2#4 7#8) (·.pc) = some 0x204#16 := by decide
theorem test_seReg_not : after 0x5120 (withRegs 1#4 7#8 2#4 8#8) (·.pc) = some 0x202#16 := by decide
theorem test_sneReg : after 0x9120 (withRegs 1#4 7#8 2#4 8#8) (·.pc) = some 0x204#16 := by decide
theorem test_sneReg_same : after 0x9110 (withRegs 1#4 7#8 2#4 8#8) (·.pc) = some 0x202#16 := by decide

/-! ALU (95_test_vectors.md 1 and 2.2). -/

theorem test_ldImm : after 0x60FF State.reset (fun s => (s.getV 0#4, s.pc)) = some (0xFF#8, 0x202#16) := by decide
theorem test_addImm_keeps_flag :
    after 0x7220 (withRegs 2#4 0xF0#8 0xF#4 1#8) (fun s => (s.getV 2#4, s.getV 0xF#4)) = some (0x10#8, 1#8) := by decide
theorem test_addImm_into_flag : after 0x7F01 (State.reset.setV 0xF#4 5#8) (·.getV 0xF#4) = some 6#8 := by decide
theorem test_ldReg : after 0x8010 (State.reset.setV 1#4 0x33#8) (·.getV 0#4) = some 0x33#8 := by decide
theorem test_orReg : after 0x8011 (withRegs 0#4 0xF0#8 1#4 0x0F#8) (·.getV 0#4) = some 0xFF#8 := by decide
theorem test_andReg : after 0x8012 (withRegs 0#4 0x3C#8 1#4 0x0F#8) (·.getV 0#4) = some 0x0C#8 := by decide
theorem test_xorReg : after 0x8013 (withRegs 0#4 0x3C#8 1#4 0x0F#8) (·.getV 0#4) = some 0x33#8 := by decide
theorem test_addReg_wraps :
    after 0x8014 (withRegs 0#4 0xFF#8 1#4 1#8) (fun s => (s.getV 0#4, s.getV 0xF#4)) = some (0#8, 1#8) := by decide
theorem test_addReg_into_flag : after 0x8F04 (withRegs 0xF#4 0xFF#8 0#4 1#8) (·.getV 0xF#4) = some 1#8 := by decide
theorem test_sub_wraps :
    after 0x8015 (withRegs 0#4 0#8 1#4 1#8) (fun s => (s.getV 0#4, s.getV 0xF#4)) = some (0xFF#8, 1#8) := by decide
theorem test_sub_equal :
    after 0x8015 (withRegs 0#4 7#8 1#4 7#8) (fun s => (s.getV 0#4, s.getV 0xF#4)) = some (0#8, 0#8) := by decide
theorem test_shr_ignores_y :
    after 0x8126 (withRegs 1#4 4#8 2#4 0xFF#8) (fun s => (s.getV 1#4, s.getV 2#4, s.getV 0xF#4)) =
      some (2#8, 0xFF#8, 0#8) := by decide
theorem test_shr_flag_wins : after 0x8FF6 (State.reset.setV 0xF#4 3#8) (·.getV 0xF#4) = some 1#8 := by decide
theorem test_subn :
    after 0x8017 (withRegs 0#4 0x10#8 1#4 0x30#8) (fun s => (s.getV 0#4, s.getV 0xF#4)) = some (0x20#8, 0#8) := by decide
theorem test_subn_wraps :
    after 0x8017 (withRegs 0#4 1#8 1#4 0#8) (fun s => (s.getV 0#4, s.getV 0xF#4)) = some (0xFF#8, 1#8) := by decide
theorem test_shl :
    after 0x801E (withRegs 0#4 0xC1#8 1#4 0#8) (fun s => (s.getV 0#4, s.getV 0xF#4)) = some (0x82#8, 1#8) := by decide
/-- AL27: whatever byte is drawn, NN = 0 gives 0. -/
theorem test_rnd_masked_to_zero (s : State) : ∃ t, exec (.rnd 3#4 0#8) s = .next t ∧ t.getV 3#4 = 0#8 :=
  ⟨_, rfl, by simp⟩

/-! Index register and memory (95_test_vectors.md 2.3). -/

theorem test_ldI : after 0xA2F0 State.reset (·.i) = some 0x2F0#16 := by decide
theorem test_addI_flag :
    after 0xF11E ((State.reset.setI 0xFFE#16).setV 1#4 3#8) (fun s => (s.i, s.getV 0xF#4)) = some (0x1001#16, 1#8) := by
  decide
theorem test_addI_overflow :
    after 0xF11E ((State.reset.setI 0xFFFF#16).setV 1#4 1#8) (fun s => (s.fault, s.i)) =
      some (some ⟨.indexOverflow, 0x200#16, some 0xF11E#16, none⟩, 0xFFFF#16) := by decide
theorem test_ldF : after 0xF229 (State.reset.setV 2#4 0xFF#8) (·.i) = some 0x4FB#16 := by decide
theorem test_ldB :
    after 0xF533 ((State.reset.setI 0xFFD#16).setV 5#4 0xFE#8)
      (fun s => (s.readByte 0xFFD, s.readByte 0xFFE, s.readByte 0xFFF)) = some (2#8, 5#8, 4#8) := by decide
theorem test_ldB_bounds :
    after 0xF533 (State.reset.setI 0xFFE#16) (fun s => (s.fault, s.readByte 0xFFE)) =
      some (some ⟨.memoryBounds, 0x200#16, some 0xF533#16, some 0x1000⟩, 0#8) := by decide
theorem test_ldMemVx :
    after 0xF155 ((withRegs 0#4 0x11#8 1#4 0x22#8).setI 0x400#16)
      (fun s => (s.readByte 0x400, s.readByte 0x401, s.readByte 0x402, s.i)) = some (0x11#8, 0x22#8, 0#8, 0x400#16) := by
  decide
theorem test_ldMemVx_bounds :
    after 0xF055 (State.reset.setI 0x1001#16) (·.fault) =
      some (some ⟨.memoryBounds, 0x200#16, some 0xF055#16, some 0x1001⟩) := by decide
theorem test_ldVxMem :
    after 0xF165 ((State.reset.setI 0x400#16).writeBytes 0x400 [0x11#8, 0x22#8, 0x33#8])
      (fun s => (s.getV 0#4, s.getV 1#4, s.getV 2#4)) = some (0x11#8, 0x22#8, 0#8) := by decide
/-- M24: a store is seen by the next fetch (20_memory.md R62). -/
theorem test_store_then_fetch :
    (after 0xF055 ((State.reset.setI 0x202#16).setV 0#4 0x12#8) id).map (fun s => s.fetchedWord) = some 0x1200#16 := by
  decide

/-! Display (95_test_vectors.md 2.4). -/

/-- A state whose sprite byte at 0x300 is `row`, with `I = 0x300` and V0, V1 the coordinates. -/
def spriteAt (row x y : Byte) : State := ((withRegs 0#4 x 1#4 y).setI 0x300#16).writeByte 0x300 row

/-- DR3: one pixel goes off, one on: a collision by 44_display.md R166. -/
theorem test_drw_collision :
    after 0xD011 ((spriteAt 0xC0#8 0#8 0#8).fbWrite 0 0 0xFF#8)
      (fun s => (s.pixel 0 0, s.pixel 1 0, s.getV 0xF#4, s.fbDirty)) = some (0#8, 0xFF#8, 1#8, true) := by decide
/-- DR6: columns 4 to 7 wrap to x = 0 to 3, columns 0 to 3 are dropped. -/
theorem test_drw_wraps_and_clips :
    after 0xD011 (spriteAt 0xFF#8 0xFC#8 0#8) (fun s => (s.pixel 3 0, s.pixel 4 0, s.fb.length)) =
      some (0xFF#8, 0#8, 4) := by decide
/-- DR5: no rows, no memory read. -/
theorem test_drw_no_rows :
    after 0xD010 ((State.reset.setI 0xFFFF#16).setV 0xF#4 1#8) (fun s => (s.getV 0xF#4, s.fbDirty, s.fault)) =
      some (0#8, true, none) := by decide
/-- DR10: a row past the memory. -/
theorem test_drw_bounds :
    after 0xD013 (State.reset.setI 0xFFE#16) (fun s => (s.fault, s.fbDirty)) =
      some (some ⟨.memoryBounds, 0x200#16, some 0xD013#16, some 0x1000⟩, false) := by decide
/-- DR9: VF is read as a coordinate before it is written. -/
theorem test_drw_flag_as_column :
    after 0xDF01 ((((State.reset.setV 0#4 2#8).setV 0xF#4 5#8).setI 0x300#16).writeByte 0x300 0x80#8)
      (fun s => (s.pixel 5 2, s.getV 0xF#4)) = some (0xFF#8, 1#8) := by decide
theorem test_cls :
    after 0x00E0 (State.reset.fbWrite 3 4 0xFF#8) (fun s => (s.pixel 3 4, s.fbDirty, s.pc)) =
      some (0#8, true, 0x202#16) := by decide

/-! Keyboard and timers (95_test_vectors.md 2.7). -/

theorem test_skp : after 0xE29E ((State.reset.setKey 5#4 true).setV 2#4 5#8) (·.pc) = some 0x204#16 := by decide
theorem test_skp_bad_key :
    after 0xE29E (State.reset.setV 2#4 0x10#8) (·.fault) =
      some (some ⟨.keyIndex, 0x200#16, some 0xE29E#16, some 0x10⟩) := by decide
theorem test_sknp : after 0xE2A1 ((State.reset.setKey 5#4 true).setV 2#4 5#8) (·.pc) = some 0x202#16 := by decide
theorem test_sknp_up : after 0xE2A1 (State.reset.setV 2#4 5#8) (·.pc) = some 0x204#16 := by decide
theorem test_ldVxDT : after 0xF407 (State.reset.setDT 0x3C#8) (·.getV 4#4) = some 0x3C#8 := by decide
theorem test_ldDTVx : after 0xF415 (State.reset.setV 4#4 0x3C#8) (·.dt) = some 0x3C#8 := by decide
theorem test_ldSTVx : after 0xF418 (State.reset.setV 4#4 0x10#8) (·.st) = some 0x10#8 := by decide
theorem test_wait_starts : after 0xF30A State.reset (fun s => (s.pc, s.waiting)) = some (0x200#16, true) := by decide
theorem test_wait_ends :
    after 0xF30A (State.reset.startWait.latchKey 7#4) (fun s => (s.getV 3#4, s.pc, s.waiting, s.received)) =
      some (7#8, 0x202#16, false, false) := by decide
/-- R193's pseudocode writes no latched key. -/
theorem test_wait_keeps_latched_key : after 0xF30A (State.reset.startWait.latchKey 7#4) (·.latchedKey) = some 7#4 := by decide
/-- R29's reading writes it, and what it writes stays free. -/
theorem test_other_reading_writes_latched_key :
    ({ State.reset with params := { Config.Params.default with latch := .written } } : State).settleLatch.latchedKey =
      Config.freeLatchedKey 0 := rfl
/-- K12: the last press wins. -/
theorem test_last_press_wins : ((State.reset.startWait.latchKey 2#4).latchKey 9#4).latchedKey = 9#4 := by decide
theorem test_key_16_refused :
    (match State.reset.pressKey 16 with | .refused .keyIdOutOfRange => true | _ => false) = true := by decide
theorem test_tick : ((State.reset.setDT 1#8).tick.dt, (State.reset.setST 2#8).tick.st, State.reset.tick.dt) = (0#8, 1#8, 0#8) := by
  decide

/-! Faults and load (95_test_vectors.md 2.8). -/

/-- X1, X12: an unloaded block stops on the word 0x0000. -/
theorem test_unknown_word :
    after 0x0000 State.reset (·.fault) = some (some ⟨.unknownInstruction, 0x200#16, some 0x0000#16, none⟩) := by decide
/-- X7: a faulted block is frozen. -/
theorem test_frozen : ((State.reset.setDT 5#8).raise .fetch none none).tick.dt = 5#8 := by decide
/-- X14, M23: after a load the font and the program are in memory. -/
theorem test_load :
    (match State.reset.load [0x60#8, 0xFF#8] with
      | .next s => [s.readByte 0, s.readByte 0x4F, s.readByte 0x200, s.readByte 0x201, s.readByte 0x202]
      | _ => []) = [0xF0#8, 0x80#8, 0x60#8, 0xFF#8, 0x00#8] := by decide
/-- X13: load after a step. -/
theorem test_load_after_step :
    (match ({ Session.start State.reset with started := true } : Session).perform (.load []) with
      | .refused .loadAfterStart => true | _ => false) = true := by decide
/-- 92_eei_decisions.md D34: load runs once, before any step too. -/
theorem test_second_load_refused :
    (match Session.performAll [.load [], .load []] (Session.start State.reset) with
      | .refused .loadAfterStart => true | _ => false) = true := by decide
/-- R214, R225: a faulting step stops the agents and wakes the filter agent. -/
theorem test_fault_stops_agents :
    (match (Session.start State.reset).perform .step with
      | .next e => (e.stopped, e.filterParked)
      | _ => (false, true)) = (true, false) := by decide
/-- R232: on that faulted block a read is still admitted. -/
theorem test_read_after_fault :
    (match Session.performAll [.step, .fbRead 0 0] (Session.start State.reset) with
      | .next _ => true | _ => false) = true := by decide
/-- R225: after the controller's shutdown no operation happens. -/
theorem test_shut_down :
    (match (Session.start State.reset).shutDown.perform .tick with
      | .refused .shutDown => true | _ => false) = true := by decide
/-- FB4: a read outside the frame. -/
theorem test_read_outside :
    (match (HostOp.fbRead 64 0).apply State.reset with | .refused .fbReadOutOfRange => true | _ => false) = true := by
  decide
/-- FB2, FB5: a write outside the frame has no effect, consuming clears the flag. -/
theorem test_frame_controller :
    ((State.reset.fbWrite 64 0 0xFF#8).fb, State.reset.fbMarkDirty.fbConsumeDirty.fbDirty) = ([], false) := by decide

/-! Filter (95_test_vectors.md 2.6). -/

/-- A block with a frame of the given rows. -/
def frameOf (w h : Nat) (rows : List (List Byte)) : State :=
  { State.createZero { Config.Params.default with fbW := w, fbH := h, outW := 2 * w, outH := 2 * h } with
    fb := sparseWriteList 0x00#8 [] 0 rows.flatten }

/-- The output cells of one pass, row-major. -/
def passOf (s : State) : List Byte := (List.range (s.params.outW * s.params.outH)).map (sparseGet 0x00#8 s.filterPass.out)

/-- F7: four overrides on a diagonal. -/
theorem test_filter_diagonal :
    passOf (frameOf 2 2 [[0xFF#8, 0#8], [0#8, 0xFF#8]]) =
      [0xFF#8, 0xFF#8, 0#8, 0#8] ++ [0xFF#8, 0#8, 0xFF#8, 0#8] ++ [0#8, 0xFF#8, 0#8, 0xFF#8] ++ [0#8, 0#8, 0xFF#8, 0xFF#8] := by
  decide
/-- F3 and F6 differ at cell (2, 2) alone: the override of corner a. -/
theorem test_filter_edge :
    let s := frameOf 3 3 [[0xFF#8, 0xFF#8, 0xFF#8], [0xFF#8, 0#8, 0#8], [0xFF#8, 0#8, 0#8]]
    (s.filterPass.outPixel 2 2, s.toggleFilter.filterPass.outPixel 2 2, s.filterPass.outPixel 3 2) = (0xFF#8, 0#8, 0#8) := by
  decide
/-- F5: clamping overrides a cell of the pixel's own block. -/
theorem test_filter_corner_pixel :
    let s := (frameOf 3 3 [[0xFF#8]]).filterPass
    (s.outPixel 0 0, s.outPixel 1 0, s.outPixel 0 1, s.outPixel 1 1, s.outDirty) = (0xFF#8, 0xFF#8, 0xFF#8, 0#8, true) := by
  decide

/-! Witnesses: states and operands that meet the hypotheses of each statement, clause by clause, at the edges. -/

/-- A block at the edges of 00_scope.md R9. -/
def edgeParams : Config.Params := { Config.Params.default with stackDepth := 1, fbW := 256, fbH := 1, outW := 512, outH := 2 }
/-- Reset with the stack pointer at `n`. -/
def withSp (n : Nat) : State := { State.reset with sp := n }
/-- Reset with `I` at `a` and register `x` at `b`. -/
def withIndex (a : Word) (x : Nibble) (b : Byte) : State := (State.reset.setV x b).setI a

theorem test_witness_construction :
    edgeParams.WellFormed ∧ ¬ { edgeParams with stackDepth := 0 }.WellFormed ∧
    ¬ { edgeParams with fbW := 257, outW := 514 }.WellFormed := by decide
theorem test_witness_step_runs :
    let s := (State.reset.jump 0xFFE#16).placeWord 0x1200#16
    s.fault = none ∧ s.pc.toNat % 2 = 0 ∧ s.pc.toNat + 1 < 0x1000 ∧
      decodeBytes (s.readByte s.pc.toNat :: s.readByte (s.pc.toNat + 1) :: []) = .instr (.jp 0x200#12) [] := by decide
theorem test_witness_step_without_instruction :
    (State.reset.raise .fetch none none).fault ≠ none ∧ (State.reset.jump 0x201#16).pc.toNat % 2 = 1 ∧
    0x1000 ≤ (State.reset.jump 0x1000#16).pc.toNat + 1 ∧ State.reset.fault = none ∧ State.reset.pc.toNat % 2 = 0 ∧
    State.reset.pc.toNat + 1 < 0x1000 ∧ decode State.reset.fetchedWord = .unknown 0x0000#16 := by decide
theorem test_witness_precise_fetch :
    ∃ t r, step (State.reset.jump 0x201#16) = .next t ∧ t.fault = some r ∧ r.kind = .fetch := ⟨_, _, rfl, rfl, rfl⟩
theorem test_witness_precise_word :
    ∃ t r, step (State.reset.placeWord 0x00EE#16) = .next t ∧ t.fault = some r ∧ r.kind = .stackUnderflow :=
  ⟨_, _, rfl, rfl, rfl⟩
theorem test_witness_fault_call : ∃ t, exec (.call 0#12) (withSp 64) = .next t ∧ t.fault.isSome = true := ⟨_, rfl, rfl⟩
theorem test_witness_no_fault_call : ∃ t, exec (.call 0#12) (withSp 63) = .next t ∧ t.fault = none := ⟨_, rfl, rfl⟩
theorem test_witness_fault_index :
    ∃ t, exec (.addI 1#4) (withIndex 0xFFFF#16 1#4 1#8) = .next t ∧ t.fault.isSome = true := ⟨_, rfl, rfl⟩
theorem test_witness_fault_key : ∃ t, exec (.skp 1#4) (withIndex 0#16 1#4 16#8) = .next t ∧ t.fault.isSome = true :=
  ⟨_, rfl, rfl⟩
theorem test_witness_fault_memory :
    ∃ t, exec (.drw 0#4 0#4 2#4) (State.reset.setI 0xFFF#16) = .next t ∧ t.fault.isSome = true := ⟨_, rfl, rfl⟩
theorem test_witness_frozen :
    (State.reset.raise .fetch none none).fault ≠ none ∧
    ∃ t, HostOp.tick.apply (State.reset.raise .fetch none none) = .next t := ⟨by decide, _, rfl⟩
theorem test_witness_stopped :
    ∃ f, (Session.start State.reset).perform .step = .next f ∧ f.block.fault.isSome = true := ⟨_, rfl, rfl⟩
theorem test_witness_step_invariant :
    State.reset.Inv ∧ ∃ t, step (State.reset.placeWord 0x2200#16) = .next t ∧ t.sp = 1 := ⟨by decide, _, rfl, rfl⟩
theorem test_witness_placed_invariant :
    (State.reset.placeWord 0x2200#16).Inv ∧ (withSp 64).Inv ∧ State.reset.startWait.Inv := by decide
/-- A block of one pixel through a load, a step, a pass and a key press. -/
theorem test_witness_interleaving :
    { edgeParams with fbW := 1, outW := 2 }.WellFormed ∧
    ∃ e, Session.performAll [.load [0x22#8, 0x00#8], .step, .filterPass, .pressKey 15]
      (Session.start (State.create { edgeParams with fbW := 1, outW := 2 } .zero)) = .next e ∧ e.block.sp = 1 :=
  ⟨by decide, _, rfl, rfl⟩
/-- The same interleaving where the values were drawn. -/
theorem test_witness_draw_policy :
    (State.create edgeParams (.draw
      { v := Vector.replicate 16 7#8, i := 9#16, stack := [5#16, 6#16], dt := 1#8, st := 2#8,
        keys := Vector.replicate 16 true, latchedKey := 3#4, mem := [0#8, 1#8] })).Inv := by
  decide
theorem test_witness_monochrome (x y : Nat) : State.reset.pixel x y = 0x00#8 := rfl
theorem test_witness_rows :
    (Instr.drw 1#4 2#4 5#4).WellFormed ∧ decode 0xD125#16 = .instr (.drw 1#4 2#4 5#4) ∧
    (opcodeRows[rowIndex (.drw 1#4 2#4 5#4)]?).isSome = true := by decide
theorem test_witness_call : (withSp 63).Inv ∧ (withSp 63).sp ≠ (withSp 63).params.stackDepth := by decide
theorem test_witness_return : (withSp 1).sp ≠ 0 ∧ (withSp 64).sp ≠ 0 := by decide
theorem test_witness_not_flag : (0xE#4 : Nibble) ≠ 0xF#4 := by decide
theorem test_witness_random_mask : (0x7F#8 : Byte).getLsbD 7 = false := by decide
theorem test_witness_operation_invariant :
    State.reset.Inv ∧ ∃ t, (HostOp.pressKey 15).apply State.reset.startWait = .next t ∧ t.received = true :=
  ⟨by decide, _, rfl, rfl⟩
theorem test_witness_register_changes :
    ∃ t, exec (.ldImm 3#4 1#8) State.reset = .next t ∧ t.getV 3#4 ≠ State.reset.getV 3#4 := ⟨_, rfl, by decide⟩
theorem test_witness_flag_changes :
    ∃ t, exec (.addReg 0#4 1#4) (withRegs 0#4 0xFF#8 1#4 1#8) = .next t ∧ t.getV 0xF#4 ≠ 0#8 := ⟨_, rfl, by decide⟩
theorem test_witness_index_changes : ∃ t, exec (.ldI 1#12) State.reset = .next t ∧ t.i ≠ State.reset.i := ⟨_, rfl, by decide⟩
theorem test_witness_stack_changes :
    ∃ t, exec (.call 1#12) State.reset = .next t ∧ t.stack ≠ State.reset.stack ∧ t.sp ≠ State.reset.sp :=
  ⟨_, rfl, by decide, by decide⟩
theorem test_witness_delay_changes : ∃ t, exec (.ldDTVx 1#4) (State.reset.setDT 1#8) = .next t ∧ t.dt ≠ 1#8 :=
  ⟨_, rfl, by decide⟩
theorem test_witness_sound_changes : ∃ t, exec (.ldSTVx 1#4) (State.reset.setST 1#8) = .next t ∧ t.st ≠ 1#8 :=
  ⟨_, rfl, by decide⟩
theorem test_witness_latch_changes :
    ∃ t, exec (.ldVxK 1#4) (State.reset.startWait.latchKey 7#4) = .next t ∧ t.waiting ≠ true ∧ t.received ≠ true :=
  ⟨_, rfl, by decide, by decide⟩
theorem test_witness_frame_changes :
    ∃ t, exec .cls (State.reset.fbWrite 0 0 0xFF#8) = .next t ∧ t.fb ≠ (State.reset.fbWrite 0 0 0xFF#8).fb ∧ t.fbDirty ≠ false :=
  ⟨_, rfl, by decide, by decide⟩
theorem test_witness_memory_changes :
    ∃ t, exec (.ldMemVx 0#4) (State.reset.setV 0#4 1#8) = .next t ∧ t.mem ≠ State.reset.mem := ⟨_, rfl, by decide⟩
theorem test_witness_draws_change : ∃ t, exec (.rnd 0#4 0#8) State.reset = .next t ∧ t.draws ≠ State.reset.draws :=
  ⟨_, rfl, by decide⟩
theorem test_witness_index_sum :
    (withIndex 0xFFFE#16 1#4 1#8).i.toNat + ((withIndex 0xFFFE#16 1#4 1#8).getV 1#4).toNat ≤ 0xFFFF ∧
    0xFFFF < (withIndex 0xFFFF#16 1#4 1#8).i.toNat + ((withIndex 0xFFFF#16 1#4 1#8).getV 1#4).toNat := by decide
theorem test_witness_digits :
    Memory.wf (State.reset.setI 0xFFD#16).mem ∧ (State.reset.setI 0xFFD#16).i.toNat + 2 < 0x1000 := by decide
theorem test_witness_store_load :
    Memory.wf (State.reset.setI 0xFF0#16).mem ∧ (State.reset.setI 0xFF0#16).i.toNat + (0xF#4 : Nibble).toNat < 0x1000 ∧
    (State.reset.setI 0xFFF#16).i.toNat + (0#4 : Nibble).toNat < 0x1000 := by decide
theorem test_witness_stack_memory_faults :
    (withSp 64).sp = (withSp 64).params.stackDepth ∧ State.reset.sp = 0 ∧ 0x1000 ≤ (State.reset.setI 0xFFE#16).i.toNat + 2 ∧
    0x1000 ≤ (State.reset.setI 0xFFF#16).i.toNat + (1#4 : Nibble).toNat ∧ 0 < (2#4 : Nibble).toNat ∧
    0x1000 ≤ (State.reset.setI 0xFFF#16).i.toNat + (2#4 : Nibble).toNat - 1 := by decide
theorem test_witness_store_then_load :
    ∃ t, exec (.ldMemVx 0xF#4) (State.reset.setI 0xFF0#16) = .next t ∧ t.mem = t.mem ∧ t.i = 0xFF0#16 := ⟨_, rfl, rfl, rfl⟩
/-- FX55 over both bytes fetched next, and over the second alone. -/
theorem test_witness_store_then_fetch :
    Memory.wf State.reset.mem ∧ (0x202 : Nat) + (1#4 : Nibble).toNat < 0x1000 ∧
    (∃ t, exec (.ldMemVx 1#4) (State.reset.setI 0x202#16) = .next t ∧ t.pc = 0x202#16) ∧
    ∃ t, exec (.ldMemVx 0#4) ((State.reset.setI 0x203#16).setV 0#4 0x12#8) = .next t ∧ t.fetchedWord = 0x0012#16 :=
  ⟨by decide, by decide, ⟨_, rfl, by decide⟩, _, rfl, by decide⟩
/-- FX33 whose last digit is the first byte fetched next. -/
theorem test_witness_digits_then_fetch :
    (0x200 : Nat) + 2 < 0x1000 ∧
    ∃ t, exec (.ldB 0#4) ((State.reset.setI 0x200#16).setV 0#4 0xFE#8) = .next t ∧ t.fetchedWord = 0x0400#16 :=
  ⟨by decide, _, rfl, by decide⟩
theorem test_witness_draw :
    (spriteAt 0x80#8 0#8 0#8).Inv ∧ (State.reset.setI 0xFFFF#16).Inv ∧ (0#4 : Nibble).toNat = 0 ∧
    (State.reset.setI 0xFFF#16).i.toNat + (1#4 : Nibble).toNat - 1 < 0x1000 ∧
    (spriteAt 0x80#8 0#8 0#8).params.collision = .unsetToSet := by decide
/-- The one pixel the sprite of one bit covers, and its 0x00 below it; a sprite of no rows covers none. -/
theorem test_witness_covered :
    (spriteAt 0x80#8 63#8 31#8).spriteCovers 63#8 31#8 1 63 31 ∧ (spriteAt 0x80#8 63#8 31#8).pixel 63 31 = 0x00#8 ∧
    ¬ State.reset.spriteCovers 0#8 0#8 0 0 0 :=
  ⟨⟨0, 0, by decide⟩, by decide, by rintro ⟨r, c, h, -⟩; exact absurd h (Nat.not_lt_zero r)⟩
theorem test_witness_key_skips :
    ((State.reset.setV 2#4 15#8).getV 2#4).toNat = (15#4 : Nibble).toNat ∧ 15 < ((State.reset.setV 2#4 16#8).getV 2#4).toNat := by
  decide
theorem test_witness_key_wait :
    State.reset.waiting = false ∧ State.reset.startWait.waiting = true ∧ State.reset.startWait.received = false ∧
    (State.reset.startWait.latchKey 15#4).waiting = true ∧ (State.reset.startWait.latchKey 15#4).received = true := by decide
theorem test_witness_press : State.reset.fault = none ∧ State.reset.waiting = false ∧ 15 ≤ 15 ∧ 15 < 16 := by decide
theorem test_witness_sound : ∃ t, step (State.reset.placeWord 0xF018#16) = .next t ∧ t.fault = none := ⟨_, rfl, rfl⟩
theorem test_witness_frame_write :
    State.reset.Inv ∧ State.reset.fault = none ∧ 63 < State.reset.params.fbW ∧ 31 < State.reset.params.fbH ∧
    State.reset.params.fbW ≤ 64 ∧ State.reset.params.fbH ≤ 32 := by decide
theorem test_witness_filter :
    let on := frameOf 2 2 [[0xFF#8]]
    on.fault = none ∧ on.params.RatioOk ∧ on.filterOn = true ∧ on.toggleFilter.fault = none ∧
    on.toggleFilter.params.RatioOk ∧ on.toggleFilter.filterOn = false ∧ 3 < on.params.outW ∧ 1 < on.params.fbW := by decide
theorem test_witness_reads :
    State.reset.fault = none ∧ 63 < State.reset.params.fbW ∧ 31 < State.reset.params.fbH ∧
    127 < State.reset.params.outW ∧ 63 < State.reset.params.outH ∧ State.reset.params.fbW ≤ 64 ∧
    State.reset.params.fbH ≤ 32 ∧ State.reset.params.outW ≤ 128 ∧ State.reset.params.outH ≤ 64 := by decide
theorem test_witness_uniform :
    let s := frameOf 2 1 [[0xFF#8, 0xFF#8]]
    s.fault = none ∧ s.params.RatioOk ∧ ∀ x, x < s.params.fbW → ∀ y, y < s.params.fbH → s.pixel x y = 0xFF#8 := by decide
theorem test_witness_single_pixel :
    let s := frameOf 3 3 [[0#8, 0#8, 0#8], [0#8, 0xFF#8]]
    s.fault = none ∧ s.params.RatioOk ∧ 1 + 1 < s.params.fbW ∧ 1 + 1 < s.params.fbH ∧ s.pixel 1 1 = 0xFF#8 ∧
    ∀ x, x < s.params.fbW → ∀ y, y < s.params.fbH → (x ≠ 1 ∨ y ≠ 1) → s.pixel x y = 0#8 := by decide
theorem test_witness_load :
    State.reset.fault = none ∧ Memory.wf State.reset.mem ∧ State.reset.params.FontOk ∧
    (List.replicate 3584 0x12#8).length ≤ 3584 ∧ 3584 < (List.replicate 3585 0x12#8).length :=
  ⟨by decide, by decide, by decide, List.length_replicate.le, List.length_replicate.symm ▸ Nat.lt_succ_self 3584⟩
theorem test_witness_load_after_start :
    ({ Session.start State.reset with started := true } : Session).stopped = false ∧
    ({ Session.start State.reset with started := true } : Session).started = true ∧
    ({ Session.start State.reset with loaded := true } : Session).loaded = true ∧
    ∃ f, (Session.start State.reset).perform (.load []) = .next f ∧ f.loaded = true := ⟨by decide, by decide, by decide, _, rfl, rfl⟩
theorem test_witness_end : ((State.reset.jump 0x300#16).placeWord 0x1300#16).SuccessfulEnd 0x300#12 := by decide
theorem test_witness_hand_off :
    let e := Session.start (State.reset.placeWord 0x00E0#16)
    e.stopped = false ∧ e.block.fault = none ∧ e.n1 = false ∧ ({ e with n1 := true } : Session).n1 = true ∧
    ∃ t, step e.block = .next t ∧ t.fault = none ∧ t.fbDirty = true := ⟨by decide, by decide, rfl, rfl, _, rfl, rfl, rfl⟩

end Sys2Proof.Machine.Tests
end

section
/-! PROOFS. Control flow: the instructions that end in one write to `pc` (41_control_flow.md R102, R106, R107). -/

namespace Sys2Proof.Machine

/-! The frames of the two operations on `pc`. -/

/-- `jump` writes `pc` alone. -/
theorem State.frameOutside_jump (s : State) (a : Word) : FrameOutside (fun p => p = .pc) s (s.jump a) := by
  intro p hp
  cases p with
  | pc => exact absurd rfl hp
  | _ => rfl

/-- A conditional skip is a jump by 4 or 2 (41_control_flow.md R100, R104). -/
theorem State.skipIf_eq_jump (s : State) (c : Bool) :
    s.skipIf c = s.jump (s.pc + if c then 4#16 else 2#16) := by
  cases c <;> rfl

/-- A conditional skip writes `pc` alone, taken or not. -/
theorem State.frameOutside_skipIf (s : State) (c : Bool) : FrameOutside (fun p => p = .pc) s (s.skipIf c) :=
  s.skipIf_eq_jump c ▸ s.frameOutside_jump _

/-! What an instruction does with them. -/

/-- `zext_16(NNN)` keeps the value (41_control_flow.md R102). -/
@[simp] theorem toNat_absTarget (nnn : Addr12) : (absTarget nnn).toNat = nnn.toNat :=
  BitVec.toNat_setWidth_of_le (by decide)

theorem exec_jp (nnn : Addr12) (s : State) : exec (.jp nnn) s = .next (s.jump (absTarget nnn)) := rfl

theorem exec_seReg (x y : Nibble) (s : State) :
    exec (.seReg x y) s = .next (s.skipIf (decide (s.getV x = s.getV y))) := rfl

theorem exec_sneReg (x y : Nibble) (s : State) :
    exec (.sneReg x y) s = .next (s.skipIf (decide (s.getV x ≠ s.getV y))) := rfl

/-- Every instruction that answers a conditional skip adds the skip's distance `d` to `pc` and changes nothing else. -/
theorem exists_next_of_exec_eq_skipIf {i : Instr} {s : State} {c : Bool} {d : Word}
    (hexec : exec i s = .next (s.skipIf c)) (hd : (if c then 4#16 else 2#16) = d) :
    ∃ t, exec i s = .next t ∧ t.pc = s.pc + d ∧ FrameOutside (fun p => p = .pc) s t :=
  ⟨s.skipIf c, hexec, by rw [State.skipIf_eq_jump, State.jump_pc, hd], s.frameOutside_skipIf c⟩

/-- Settles O16: JP is a `jump` to the zero-extended NNN, and `jump` writes `pc` alone. -/
theorem jumpSetsThePc : Obligations.JumpSetsThePc := by
  intro nnn s
  exact ⟨s.jump (absTarget nnn), exec_jp nnn s, toNat_absTarget nnn, s.frameOutside_jump _⟩

/-- Settles O22: both forms are conditional skips; 9XY0 takes the condition of 5XY0 negated, so its distances are
swapped. -/
theorem skipsOnRegisters : Obligations.SkipsOnRegisters := by
  intro x y s
  constructor
  · exact exists_next_of_exec_eq_skipIf (exec_seReg x y s) (by simp only [decide_eq_true_eq])
  · exact exists_next_of_exec_eq_skipIf (exec_sneReg x y s) (by simp only [decide_eq_true_eq, ne_eq, ite_not])

end Sys2Proof.Machine
end

section
/-! PROOFS. The ALU's loads: one register written, then `advance` (42_alu.md R121 to R123). -/

namespace Sys2Proof.Machine

/-! Frames compose along a chain of operations. -/

theorem Part.same_trans {p : Part} {s t u : State} (hst : p.same s t) (htu : p.same t u) : p.same s u := by
  cases p <;> exact Eq.trans hst htu

/-- What two operations in turn write is what either of them writes. -/
theorem FrameOutside.trans {A B : Part → Prop} {s t u : State} (hst : FrameOutside A s t) (htu : FrameOutside B t u) :
    FrameOutside (fun p => A p ∨ B p) s u :=
  fun p hp => Part.same_trans (hst p fun ha => hp (.inl ha)) (htu p fun hb => hp (.inr hb))

/-- `setV` writes one register alone. -/
theorem State.frameOutside_setV (s : State) (x : Nibble) (b : Byte) :
    FrameOutside (fun p => p = .v x) s (s.setV x b) := by
  intro p hp
  cases p with
  | v r =>
    have hr : r ≠ x := fun h => hp (congrArg Part.v h)
    exact (s.getV_setV_ne b hr).symm
  | _ => rfl

/-- `advance` writes `pc` alone (41_control_flow.md R100). -/
theorem State.frameOutside_advance (s : State) : FrameOutside (fun p => p = .pc) s s.advance :=
  s.frameOutside_jump _

/-! What an instruction does with them. -/

theorem exec_ldImm (x : Nibble) (nn : Byte) (s : State) : exec (.ldImm x nn) s = .next (s.setV x nn).advance := rfl

theorem exec_ldReg (x y : Nibble) (s : State) : exec (.ldReg x y) s = .next (s.setV x (s.getV y)).advance := rfl

theorem exec_addImm (x : Nibble) (nn : Byte) (s : State) :
    exec (.addImm x nn) s = .next (s.setV x (s.getV x + nn)).advance := rfl

/-- Every instruction that answers one register write and then `advance` leaves the byte written in `V[x]`, moves `pc`
to the next word and changes nothing else. -/
theorem exists_next_of_exec_eq_setV_advance {i : Instr} {s : State} {x : Nibble} {b : Byte}
    (hexec : exec i s = .next (s.setV x b).advance) :
    ∃ t, exec i s = .next t ∧ t.getV x = b ∧ t.pc = s.pc + 2#16 ∧ FrameOutside (fun p => p = .v x ∨ p = .pc) s t :=
  ⟨(s.setV x b).advance, hexec, s.getV_setV_self x b, rfl,
    (s.frameOutside_setV x b).trans (s.setV x b).frameOutside_advance⟩

/-- Settles O23: 6XNN writes NN and 8XY0 the value of V[Y]; each is that one register write and then `advance`. -/
theorem registerLoads : Obligations.RegisterLoads := by
  intro x y nn s
  constructor
  · exact exists_next_of_exec_eq_setV_advance (exec_ldImm x nn s)
  · exact exists_next_of_exec_eq_setV_advance (exec_ldReg x y s)

/-- Settles O24: 7XNN writes the 8-bit sum, whose value is the sum modulo 256, and then advances; it writes no flag. -/
theorem addImmediateWraps : Obligations.AddImmediateWraps := by
  intro x nn s
  obtain ⟨t, hexec, hsum, hpc, hframe⟩ := exists_next_of_exec_eq_setV_advance (exec_addImm x nn s)
  have hwrap : (t.getV x).toNat = ((s.getV x).toNat + nn.toNat) % 256 := by rw [hsum, BitVec.toNat_add]
  exact ⟨t, hexec, hwrap, hpc, hframe⟩

end Sys2Proof.Machine
end

section
/-! PROOFS. The index register: `I` written, then `advance` (43_index_memory.md R140). -/

namespace Sys2Proof.Machine

/-- `setI` writes the index register alone. -/
theorem State.frameOutside_setI (s : State) (a : Word) : FrameOutside (fun p => p = .i) s (s.setI a) := by
  intro p hp
  cases p with
  | i => exact absurd rfl hp
  | _ => rfl

theorem exec_ldI (nnn : Addr12) (s : State) : exec (.ldI nnn) s = .next (s.setI (absTarget nnn)).advance := rfl

/-- Settles O31: ANNN writes the zero-extended NNN to `I` and then advances. -/
theorem loadIndex : Obligations.LoadIndex := by
  intro nnn s
  refine ⟨(s.setI (absTarget nnn)).advance, exec_ldI nnn s, ?_, ?_, ?_⟩
  · rw [State.advance_i, State.setI_i, toNat_absTarget]
  · rw [State.advance_pc, State.setI_pc]
  · exact (s.frameOutside_setI (absTarget nnn)).trans (s.setI (absTarget nnn)).frameOutside_advance

end Sys2Proof.Machine
end

section
/-! PROOFS. The frame-buffer controller's write: one pixel of the grid, or none (44_display.md R171). -/

namespace Sys2Proof.Machine

/-- Outside the frame a grid takes no write (44_display.md R171). -/
theorem gridWrite_outside (p : Config.Params) (g : Grid) {x y : Nat} (h : p.fbW ≤ x ∨ p.fbH ≤ y) (b : Byte) :
    gridWrite p g x y b = g := by
  have hout : ¬ inFrame p x y = true := by rw [inFrame_iff]; omega
  exact if_neg hout

/-- `setFb` writes pixels of the frame alone. -/
theorem State.frameOutside_setFb (s : State) (g : Grid) :
    FrameOutside (fun p => ∃ px py, p = .pixel px py) s (s.setFb g) := by
  intro p hp
  cases p with
  | pixel px py => exact absurd ⟨px, py, rfl⟩ hp
  | _ => rfl

/-- On a live block `fb_write` is one write to the grid (44_display.md R171). -/
theorem State.fbWrite_of_safe {s : State} (hsafe : s.fault = none) (x y : Nat) (b : Byte) :
    s.fbWrite x y b = s.setFb (gridWrite s.params s.fb x y b) :=
  s.unlessFaulted_of_safe _ hsafe

/-- Inside the frame `fb_write` is read back, and every other pixel stays. -/
theorem State.pixel_fbWrite {s : State} (hinv : s.Inv) (hsafe : s.fault = none) {x y px py : Nat} (b : Byte)
    (hx : px < s.params.fbW) (hy : py < s.params.fbH) :
    (s.fbWrite x y b).pixel px py = if px = x ∧ py = y then b else s.pixel px py := by
  obtain ⟨-, -, hfb, -⟩ := hinv
  rw [State.fbWrite_of_safe hsafe]
  exact gridPixel_gridWrite s.params hfb b hx hy

/-- Settles O51: `fb_write` is one grid write, which changes one pixel inside the frame and nothing outside it. -/
theorem frameWriteIsBounded : Obligations.FrameWriteIsBounded := by
  intro x y b s hinv hsafe
  refine ⟨fun hx hy => ⟨?_, ?_, ?_⟩, fun hout => ?_⟩
  · rw [State.pixel_fbWrite hinv hsafe b hx hy, if_pos ⟨rfl, rfl⟩]
  · intro px py hpx hpy hne
    rw [State.pixel_fbWrite hinv hsafe b hpx hpy, if_neg (by omega)]
  · rw [State.fbWrite_of_safe hsafe]
    exact s.frameOutside_setFb _
  · rw [State.fbWrite_of_safe hsafe, gridWrite_outside s.params s.fb hout b]
    rfl

end Sys2Proof.Machine
end

section
/-! PROOFS. The timer transfers: a register, `DT` or `ST` written, then `advance` (45_keyboard_timers.md R192, R194,
R195). -/

namespace Sys2Proof.Machine

/-- `setDT` writes the delay timer alone. -/
theorem State.frameOutside_setDT (s : State) (b : Byte) : FrameOutside (fun p => p = .dt) s (s.setDT b) := by
  intro p hp
  cases p with
  | dt => exact absurd rfl hp
  | _ => rfl

/-- `setST` writes the sound timer alone. -/
theorem State.frameOutside_setST (s : State) (b : Byte) : FrameOutside (fun p => p = .st) s (s.setST b) := by
  intro p hp
  cases p with
  | st => exact absurd rfl hp
  | _ => rfl

theorem exec_ldVxDT (x : Nibble) (s : State) : exec (.ldVxDT x) s = .next (s.setV x s.dt).advance := rfl

theorem exec_ldDTVx (x : Nibble) (s : State) : exec (.ldDTVx x) s = .next (s.setDT (s.getV x)).advance := rfl

theorem exec_ldSTVx (x : Nibble) (s : State) : exec (.ldSTVx x) s = .next (s.setST (s.getV x)).advance := rfl

/-- Settles O45: FX07 is one register write, FX15 and FX18 one timer write each; every form then advances, so its frame
is that write's frame and `pc`. -/
theorem timerTransfers : Obligations.TimerTransfers := by
  intro x s
  refine ⟨exists_next_of_exec_eq_setV_advance (exec_ldVxDT x s),
    ⟨(s.setDT (s.getV x)).advance, exec_ldDTVx x s, ?_, ?_, ?_⟩,
    ⟨(s.setST (s.getV x)).advance, exec_ldSTVx x s, ?_, ?_, ?_⟩⟩
  · rw [State.advance_dt, State.setDT_dt]
  · rw [State.advance_pc, State.setDT_pc]
  · exact (s.frameOutside_setDT (s.getV x)).trans (s.setDT (s.getV x)).frameOutside_advance
  · rw [State.advance_st, State.setST_st]
  · rw [State.advance_pc, State.setST_pc]
  · exact (s.frameOutside_setST (s.getV x)).trans (s.setST (s.getV x)).frameOutside_advance

end Sys2Proof.Machine
end

section
/-! PROOFS. The encoding: decode undoes encode, and the decoder agrees with the opcode map (30_encoding.md sections 1
to 4). -/

namespace Sys2Proof

/-- The decoder undoes the encoder: the layout gives the fields back, and the class with the form's selector leads to
the instruction's own arm (30_encoding.md R78, R80). -/
theorem decode_encode (i : Instr) : decode (encode i) = .instr i := by
  cases i with
  | cls | ret => rfl
  | jp _ | call _ | ldI _ | jpV0 _ => simp [encode, decode]
  | seImm _ _ | sneImm _ _ | ldImm _ _ | addImm _ _ | rnd _ _ => simp [encode, decode]
  | seReg _ _ | sneReg _ _ | drw _ _ _ => simp [encode, decode]
  | ldReg _ _ | orReg _ _ | andReg _ _ | xorReg _ _ | addReg _ _ | sub _ _ | shr _ _ | subn _ _ | shl _ _ =>
    simp [encode, decode, decodeClass8]
  | skp _ | sknp _ => simp [encode, decode, decodeClassE]
  | ldVxDT _ | ldVxK _ | ldDTVx _ | ldSTVx _ | addI _ | ldF _ | ldB _ | ldMemVx _ | ldVxMem _ =>
    simp [encode, decode, decodeClassF]

/-- The decoder reads an instruction from its two bytes and leaves the rest (30_encoding.md R70, 20_memory.md R54). -/
theorem decodeBytes_encodeBytes_append (i : Instr) (rest : List Byte) :
    decodeBytes (encodeBytes i ++ rest) = .instr i rest := by
  simp [encodeBytes, decodeBytes, decode_encode]

/-- Settles O12: the word decodes by its layout, and its two bytes in memory order make that word. -/
theorem decodeOfEncodeIsTheInstruction : Obligations.DecodeOfEncodeIsTheInstruction :=
  fun i rest _ => ⟨decode_encode i, decodeBytes_encodeBytes_append i rest⟩

/-! The converse: what the decoder reads from a word encodes back to that word, selector by selector. -/

theorem encode_of_decodeClass0 {w : Word} {i : Instr} (h : decodeClass0 w = .instr i) : encode i = w := by
  unfold decodeClass0 at h
  split at h
  · next hw => cases h; exact hw.symm
  · split at h
    · next hw => cases h; exact hw.symm
    · cases h

theorem encode_of_decodeClass8 {w : Word} {i : Instr} (hc : fieldClass w = 0x8#4) (h : decodeClass8 w = .instr i) :
    encode i = w := by
  have hw := word_of_nibble_fields w
  rw [hc] at hw
  unfold decodeClass8 at h
  split at h <;> cases h
  all_goals next hn => rw [hn] at hw; exact hw

theorem encode_of_decodeClassE {w : Word} {i : Instr} (hc : fieldClass w = 0xE#4) (h : decodeClassE w = .instr i) :
    encode i = w := by
  have hw := word_of_byte_fields w
  rw [hc] at hw
  unfold decodeClassE at h
  split at h <;> cases h
  all_goals next hnn => rw [hnn] at hw; exact hw

theorem encode_of_decodeClassF {w : Word} {i : Instr} (hc : fieldClass w = 0xF#4) (h : decodeClassF w = .instr i) :
    encode i = w := by
  have hw := word_of_byte_fields w
  rw [hc] at hw
  unfold decodeClassF at h
  split at h <;> cases h
  all_goals next hnn => rw [hnn] at hw; exact hw

/-- A word that decodes is the encoding of what it decodes to. -/
theorem encode_of_decode {w : Word} {i : Instr} (h : decode w = .instr i) : encode i = w := by
  have haddr := word_of_addr_fields w
  have hbyte := word_of_byte_fields w
  have hnib := word_of_nibble_fields w
  unfold decode at h
  split at h
  case h_1 => exact encode_of_decodeClass0 h
  case h_2 hc | h_3 hc | h_11 hc | h_12 hc => cases h; rw [hc] at haddr; exact haddr
  case h_4 hc | h_5 hc | h_7 hc | h_8 hc | h_13 hc => cases h; rw [hc] at hbyte; exact hbyte
  case h_6 hc | h_10 hc =>
    split at h <;> cases h
    next hn => rw [hc, hn] at hnib; exact hnib
  case h_9 hc => exact encode_of_decodeClass8 hc h
  case h_14 hc => cases h; rw [hc] at hnib; exact hnib
  case h_15 hc => exact encode_of_decodeClassE hc h
  case h_16 =>
    have hc : fieldClass w = 0xF#4 := by simp only [imp_false] at *; bv_omega
    exact encode_of_decodeClassF hc h

/-- A word the decoder calls unknown is named as it is. -/
theorem eq_of_decode_unknown {w u : Word} (h : decode w = .unknown u) : u = w := by
  unfold decode decodeClass0 decodeClass8 decodeClassE decodeClassF at h
  (repeat' split at h) <;> cases h <;> rfl

/-- No two rows of the opcode map overlap: some bit that both masks keep differs in their matches. -/
theorem opcodeRows_pairwise :
    opcodeRows.Pairwise fun r r' => r.matchBits &&& r'.mask ≠ r'.matchBits &&& r.mask := by
  decide

/-- A word matches at most one row of the opcode map (30_encoding.md R79). -/
theorem index_eq_of_matchesWord {w : Word} {j k : Nat} {r r' : OpcodeRow} (hj : opcodeRows[j]? = some r)
    (hk : opcodeRows[k]? = some r') (hr : r.matchesWord w = true) (hr' : r'.matchesWord w = true) : j = k := by
  obtain ⟨hjl, rfl⟩ := List.getElem?_eq_some_iff.1 hj
  obtain ⟨hkl, rfl⟩ := List.getElem?_eq_some_iff.1 hk
  rw [OpcodeRow.matchesWord, beq_iff_eq] at hr hr'
  have hrows := List.pairwise_iff_getElem.1 opcodeRows_pairwise
  have hboth : opcodeRows[j].matchBits &&& opcodeRows[k].mask = opcodeRows[k].matchBits &&& opcodeRows[j].mask := by
    rw [← hr, ← hr', BitVec.and_assoc, BitVec.and_assoc, BitVec.and_comm opcodeRows[j].mask]
  rcases Nat.lt_trichotomy j k with hjk | hjk | hjk
  · exact absurd hboth (hrows j k hjl hkl hjk)
  · exact hjk
  · exact absurd hboth.symm (hrows k j hkl hjl hjk)

/-! The rows by mask: what a word that matches one looks like, and that it decodes. -/

/-- The nibbles a row's mask keeps are the row's own. -/
theorem fields_of_matchesWord {r : OpcodeRow} {w : Word} (h : r.matchesWord w = true) :
    (fieldClass r.mask = .allOnes 4 → fieldClass w = fieldClass r.matchBits) ∧
    (fieldX r.mask = .allOnes 4 → fieldX w = fieldX r.matchBits) ∧
    (fieldY r.mask = .allOnes 4 → fieldY w = fieldY r.matchBits) ∧
    (fieldN r.mask = .allOnes 4 → fieldN w = fieldN r.matchBits) := by
  obtain ⟨⟨hc, hx⟩, hy, hn⟩ := (matchesWord_iff r w).1 h
  refine ⟨fun hm => ?_, fun hm => ?_, fun hm => ?_, fun hm => ?_⟩
  · rwa [hm, BitVec.and_allOnes] at hc
  · rwa [hm, BitVec.and_allOnes] at hx
  · rwa [hm, BitVec.and_allOnes] at hy
  · rwa [hm, BitVec.and_allOnes] at hn

/-- The classes without a selector, each one row of mask 0xF000. -/
def wholeClasses : List Nibble := [0x1#4, 0x2#4, 0x3#4, 0x4#4, 0x6#4, 0x7#4, 0xA#4, 0xB#4, 0xC#4, 0xD#4]

/-- The classes and nibbles N of the rows of mask 0xF00F. -/
def nibbleForms : List (Nibble × Nibble) :=
  [(0x5#4, 0x0#4), (0x9#4, 0x0#4)] ++
  [0x0#4, 0x1#4, 0x2#4, 0x3#4, 0x4#4, 0x5#4, 0x6#4, 0x7#4, 0xE#4].map fun n => (0x8#4, n)

/-- The classes and bytes NN of the rows of mask 0xF0FF. -/
def byteForms : List (Nibble × Byte) :=
  [(0xE#4, 0x9E#8), (0xE#4, 0xA1#8)] ++
  [0x07#8, 0x0A#8, 0x15#8, 0x18#8, 0x1E#8, 0x29#8, 0x33#8, 0x55#8, 0x65#8].map fun b => (0xF#4, b)

/-- Every row of the opcode map has one of four masks, and its match is one of that mask's forms. -/
theorem opcodeRows_forms : ∀ r ∈ opcodeRows,
    (r.mask = 0xFFFF#16 ∧ r.matchBits ∈ [0x00E0#16, 0x00EE#16]) ∨
    (r.mask = 0xF000#16 ∧ fieldClass r.matchBits ∈ wholeClasses) ∨
    (r.mask = 0xF00F#16 ∧ (fieldClass r.matchBits, fieldN r.matchBits) ∈ nibbleForms) ∨
    (r.mask = 0xF0FF#16 ∧ (fieldClass r.matchBits, fieldNN r.matchBits) ∈ byteForms) := by
  decide

theorem decode_ne_unknown_of_wholeClass {w : Word} (h : fieldClass w ∈ wholeClasses) : decode w ≠ .unknown w := by
  simp only [wholeClasses, List.mem_cons, List.not_mem_nil, or_false] at h
  rcases h with h | h | h | h | h | h | h | h | h | h <;> simp [decode, h]

theorem decode_ne_unknown_of_nibbleForm {w : Word} (h : (fieldClass w, fieldN w) ∈ nibbleForms) :
    decode w ≠ .unknown w := by
  simp only [nibbleForms, List.map_cons, List.map_nil, List.cons_append, List.nil_append, List.mem_cons,
    List.not_mem_nil, or_false, Prod.mk.injEq] at h
  rcases h with h | h | h | h | h | h | h | h | h | h | h <;> simp [decode, decodeClass8, h]

theorem decode_ne_unknown_of_byteForm {w : Word} (h : (fieldClass w, fieldNN w) ∈ byteForms) :
    decode w ≠ .unknown w := by
  simp only [byteForms, List.map_cons, List.map_nil, List.cons_append, List.nil_append, List.mem_cons,
    List.not_mem_nil, or_false, Prod.mk.injEq] at h
  rcases h with h | h | h | h | h | h | h | h | h | h | h <;> simp [decode, decodeClassE, decodeClassF, h]

/-- A word that matches a row decodes: the row fixes the class and the form's selector (30_encoding.md R79, R80). -/
theorem decode_ne_unknown_of_matchesWord {w : Word} {r : OpcodeRow} (hr : r ∈ opcodeRows)
    (h : r.matchesWord w = true) : decode w ≠ .unknown w := by
  obtain ⟨hc, hx, hy, hn⟩ := fields_of_matchesWord h
  rcases opcodeRows_forms r hr with ⟨hm, hf⟩ | ⟨hm, hf⟩ | ⟨hm, hf⟩ | ⟨hm, hf⟩ <;> rw [hm] at hc hx hy hn
  · have hw : w = r.matchBits := (word_eq_iff _ _).2 ⟨hc rfl, hx rfl, hy rfl, hn rfl⟩
    rw [← hw, List.mem_pair] at hf
    rcases hf with rfl | rfl <;> decide
  · rw [← hc rfl] at hf
    exact decode_ne_unknown_of_wholeClass hf
  · rw [← hc rfl, ← hn rfl] at hf
    exact decode_ne_unknown_of_nibbleForm hf
  · rw [fieldNN_eq, ← hc rfl, ← hy rfl, ← hn rfl, ← fieldNN_eq] at hf
    exact decode_ne_unknown_of_byteForm hf

/-- The word of an instruction matches the instruction's own row (30_encoding.md R79). -/
theorem rowMatch (i : Instr) : Laws.RowMatch.Statement i := by
  cases i with
  | cls => exact Laws.RowMatch.cls
  | ret => exact Laws.RowMatch.ret
  | jp nnn => exact Laws.RowMatch.jp nnn
  | call nnn => exact Laws.RowMatch.call nnn
  | seImm x nn => exact Laws.RowMatch.seImm x nn
  | sneImm x nn => exact Laws.RowMatch.sneImm x nn
  | seReg x y => exact Laws.RowMatch.seReg x y
  | sneReg x y => exact Laws.RowMatch.sneReg x y
  | ldImm x nn => exact Laws.RowMatch.ldImm x nn
  | addImm x nn => exact Laws.RowMatch.addImm x nn
  | ldReg x y => exact Laws.RowMatch.ldReg x y
  | orReg x y => exact Laws.RowMatch.orReg x y
  | andReg x y => exact Laws.RowMatch.andReg x y
  | xorReg x y => exact Laws.RowMatch.xorReg x y
  | addReg x y => exact Laws.RowMatch.addReg x y
  | sub x y => exact Laws.RowMatch.sub x y
  | shr x y => exact Laws.RowMatch.shr x y
  | subn x y => exact Laws.RowMatch.subn x y
  | shl x y => exact Laws.RowMatch.shl x y
  | ldI nnn => exact Laws.RowMatch.ldI nnn
  | jpV0 nnn => exact Laws.RowMatch.jpV0 nnn
  | rnd x nn => exact Laws.RowMatch.rnd x nn
  | drw x y n => exact Laws.RowMatch.drw x y n
  | skp x => exact Laws.RowMatch.skp x
  | sknp x => exact Laws.RowMatch.sknp x
  | ldVxDT x => exact Laws.RowMatch.ldVxDT x
  | ldVxK x => exact Laws.RowMatch.ldVxK x
  | ldDTVx x => exact Laws.RowMatch.ldDTVx x
  | ldSTVx x => exact Laws.RowMatch.ldSTVx x
  | addI x => exact Laws.RowMatch.addI x
  | ldF x => exact Laws.RowMatch.ldF x
  | ldB x => exact Laws.RowMatch.ldB x
  | ldMemVx x => exact Laws.RowMatch.ldMemVx x
  | ldVxMem x => exact Laws.RowMatch.ldVxMem x

/-- Settles O13: a word that decodes is its instruction's encoding, which matches that instruction's row, and no two
rows overlap; a word that matches a row decodes. -/
theorem decodeAgreesWithTheOpcodeMap : Obligations.DecodeAgreesWithTheOpcodeMap := by
  intro w
  refine ⟨fun i hi => ⟨encode_of_decode hi, fun k r hk => ?_⟩, fun hu r hr => ?_, fun hnone => ?_⟩
  · obtain ⟨own, hown, hmatch⟩ := rowMatch i
    rw [encode_of_decode hi] at hmatch
    constructor
    · intro hr
      exact index_eq_of_matchesWord hk hown hr hmatch
    · rintro rfl
      obtain rfl : own = r := Option.some.inj (hown.symm.trans hk)
      exact hmatch
  · rw [← Bool.not_eq_true]
    intro hmatch
    exact decode_ne_unknown_of_matchesWord hr hmatch hu
  · cases hw : decode w with
    | unknown u => rw [eq_of_decode_unknown hw]
    | instr i =>
      obtain ⟨own, hown, hmatch⟩ := rowMatch i
      rw [encode_of_decode hw, hnone own (List.mem_of_getElem? hown)] at hmatch
      cases hmatch

/-! The illegal words by class. -/

theorem toNat_fieldClass (w : Word) : (fieldClass w).toNat = w.toNat / 4096 := by
  have := w.isLt
  rw [fieldClass, toNat_field]; omega

theorem toNat_fieldN (w : Word) : (fieldN w).toNat = w.toNat % 16 := by
  rw [fieldN, toNat_field]; omega

theorem toNat_fieldNN (w : Word) : (fieldNN w).toNat = w.toNat % 256 := by
  rw [fieldNN, toNat_field]; omega

theorem decodeClass0_eq_unknown_iff (w : Word) :
    decodeClass0 w = .unknown w ↔ w ≠ 0x00E0#16 ∧ w ≠ 0x00EE#16 := by
  unfold decodeClass0
  split
  · simp [*]
  · split <;> simp [*]

theorem decodeClass8_eq_unknown_iff (w : Word) :
    decodeClass8 w = .unknown w ↔ (fieldN w).toNat ∈ [0x8, 0x9, 0xA, 0xB, 0xC, 0xD, 0xF] := by
  unfold decodeClass8
  split
  case h_10 =>
    simp only [imp_false, List.mem_cons, List.not_mem_nil, or_false, true_iff] at *
    bv_omega
  all_goals next hn => simp [hn]

theorem decodeClassE_eq_unknown_iff (w : Word) :
    decodeClassE w = .unknown w ↔ (fieldNN w).toNat ≠ 0x9E ∧ (fieldNN w).toNat ≠ 0xA1 := by
  unfold decodeClassE
  split
  case h_3 =>
    simp only [imp_false, true_iff] at *
    bv_omega
  all_goals next hnn => simp [hnn]

theorem decodeClassF_eq_unknown_iff (w : Word) :
    decodeClassF w = .unknown w ↔ (fieldNN w).toNat ∉ [0x07, 0x0A, 0x15, 0x18, 0x1E, 0x29, 0x33, 0x55, 0x65] := by
  unfold decodeClassF
  split
  case h_10 =>
    simp only [imp_false, List.mem_cons, List.not_mem_nil, or_false, true_iff] at *
    bv_omega
  all_goals next hnn => simp [hnn]

/-- Settles O14: class by class the decoder's own selector says which words are unknown. -/
theorem illegalWordsAreExactlyThese : Obligations.IllegalWordsAreExactlyThese := by
  intro w
  rw [← toNat_fieldClass, ← toNat_fieldN, ← toNat_fieldNN]
  unfold decode
  split
  case h_1 hc => simp [hc, decodeClass0_eq_unknown_iff]
  case h_6 hc | h_10 hc =>
    split
    · next hn => simp [hc, hn]
    · next hn =>
      have hne : (fieldN w).toNat ≠ 0 := by bv_omega
      simp [hc, hne]
  case h_9 hc => simp [hc, decodeClass8_eq_unknown_iff]
  case h_15 hc => simp [hc, decodeClassE_eq_unknown_iff]
  case h_16 =>
    have hc : fieldClass w = 0xF#4 := by simp only [imp_false] at *; bv_omega
    simp [hc, decodeClassF_eq_unknown_iff]
  all_goals next hc => simp [hc]

/-- Settles O15: the words are literals, which the decoder evaluates. -/
theorem sampleWordsDecode : Obligations.SampleWordsDecode := by
  unfold Obligations.SampleWordsDecode
  decide

end Sys2Proof
end

section
/-! PROOFS. The step and the instructions, each said once: which of its four ways a step takes, and which chain of
operations an instruction runs (41_control_flow.md R100, 60_exceptions.md R219). -/

namespace Sys2Proof.Machine

/-! The four ways of a step, in the order they are checked. -/

variable {s t : State} {i : Instr}

theorem step_of_fault (h : s.fault ≠ none) : step s = .next s :=
  if_pos (Option.isSome_iff_ne_none.2 h)

theorem step_of_not_fetchable (h : s.fault = none) (hf : ¬ s.fetchable = true) :
    step s = .next (s.raise .fetch none none) := by
  rw [step, if_neg (Option.not_isSome_iff_eq_none.2 h), if_neg hf]

theorem step_of_unknown (h : s.fault = none) (hf : s.fetchable = true) {w : Word}
    (hw : decode s.fetchedWord = .unknown w) : step s = .next (s.raise .unknownInstruction (some w) none) := by
  rw [step, if_neg (Option.not_isSome_iff_eq_none.2 h), if_pos hf, hw]

theorem step_of_instr (h : s.fault = none) (hf : s.fetchable = true) (hw : decode s.fetchedWord = .instr i) :
    step s = exec i s := by
  rw [step, if_neg (Option.not_isSome_iff_eq_none.2 h), if_pos hf, hw]

/-- A step stays in a faulted block, raises one of the two faults before an instruction, or runs the fetched one. -/
theorem step_cases (s : State) :
    (s.fault ≠ none ∧ step s = .next s) ∨
    (s.fault = none ∧ step s = .next (s.raise .fetch none none)) ∨
    (s.fault = none ∧ step s = .next (s.raise .unknownInstruction (some s.fetchedWord) none)) ∨
    ∃ i, s.fault = none ∧ encode i = s.fetchedWord ∧ step s = exec i s := by
  by_cases h : s.fault = none
  · by_cases hf : s.fetchable = true
    · cases hw : decode s.fetchedWord with
      | instr i => exact .inr (.inr (.inr ⟨i, h, encode_of_decode hw, step_of_instr h hf hw⟩))
      | unknown w =>
        obtain rfl := eq_of_decode_unknown hw
        exact .inr (.inr (.inl ⟨h, step_of_unknown h hf hw⟩))
    · exact .inr (.inl ⟨h, step_of_not_fetchable h hf⟩)
  · exact .inl ⟨h, step_of_fault h⟩

/-! The instructions that check something: their condition, the fault, the chain. -/

theorem exec_ret (s : State) : exec .ret s =
    if s.sp = 0 then .next (s.raiseIn .ret .stackUnderflow none)
    else .next (s.dropTop.jump (s.stackAt (s.sp - 1))) := rfl

theorem exec_call (nnn : Addr12) (s : State) : exec (.call nnn) s =
    if s.sp = s.params.stackDepth then .next (s.raiseIn (.call nnn) .stackOverflow none)
    else .next ((s.push (s.pc + 2#16)).jump (absTarget nnn)) := rfl

theorem exec_addI (x : Nibble) (s : State) : exec (.addI x) s =
    if 0xFFFF < s.indexSum x then .next (s.raiseIn (.addI x) .indexOverflow none)
    else .next ((s.setI (BitVec.ofNat 16 (s.indexSum x))).setFlag (indexExceeds (s.indexSum x))).advance := rfl

/-- The state a draw that reads no byte outside the memory leaves. -/
def State.drawnOver (s : State) (c : Canvas) : State := ((s.setFb c.grid).setFlag c.hit).markDirty.advance

theorem exec_drw (x y n : Nibble) (s : State) : exec (.drw x y n) s =
    if s.spriteOutside n.toNat then .next (s.raiseIn (.drw x y n) .memoryBounds (some s.firstBadAddr))
    else .next (s.drawnOver (s.drawSprite (s.getV x) (s.getV y) n.toNat)) := rfl

theorem exec_ldB (x : Nibble) (s : State) : exec (.ldB x) s =
    if s.reaches 2 then .next (s.writeBytes (s.indexAddr 0) (decimalDigits (s.getV x))).advance
    else .next (s.raiseIn (.ldB x) .memoryBounds (some s.firstBadAddr)) := rfl

theorem exec_ldMemVx (x : Nibble) (s : State) : exec (.ldMemVx x) s =
    if s.reaches x.toNat then .next (s.writeBytes (s.indexAddr 0) (s.regList (x.toNat + 1))).advance
    else .next (s.raiseIn (.ldMemVx x) .memoryBounds (some s.firstBadAddr)) := rfl

theorem exec_ldVxMem (x : Nibble) (s : State) : exec (.ldVxMem x) s =
    if s.reaches x.toNat then .next (s.loadRegs (x.toNat + 1)).advance
    else .next (s.raiseIn (.ldVxMem x) .memoryBounds (some s.firstBadAddr)) := rfl

/-- A conditional skip on the key a register value names, with the condition `f` (45_keyboard_timers.md R190, R191). -/
def State.keySkip (s : State) (i : Instr) (b : Byte) (f : Nibble → Bool) : State :=
  match keyOf b with
  | none => s.raiseIn i .keyIndex (some b.toNat)
  | some k => s.skipIf (f k)

theorem State.keySkip_of_gt (s : State) (i : Instr) {b : Byte} (f : Nibble → Bool) (hb : 15 < b.toNat) :
    s.keySkip i b f = s.raiseIn i .keyIndex (some b.toNat) := by
  rw [State.keySkip, (keyOf_eq_none b).2 hb]

theorem State.keySkip_of_eq (s : State) (i : Instr) {b : Byte} (f : Nibble → Bool) {k : Nibble}
    (hb : b.toNat = k.toNat) : s.keySkip i b f = s.skipIf (f k) := by
  rw [State.keySkip, (keyOf_eq_some b k).2 hb]

theorem exec_skp (x : Nibble) (s : State) : exec (.skp x) s = .next (s.keySkip (.skp x) (s.getV x) s.keyDown) := by
  rw [exec, execSkp, State.keySkip]
  cases keyOf (s.getV x) <;> rfl

theorem exec_sknp (x : Nibble) (s : State) :
    exec (.sknp x) s = .next (s.keySkip (.sknp x) (s.getV x) fun k => !s.keyDown k) := by
  rw [exec, execSknp, State.keySkip]
  cases keyOf (s.getV x) <;> rfl

/-! FX0A in its three states (45_keyboard_timers.md R193). -/

theorem exec_ldVxK_start (x : Nibble) (hw : s.waiting = false) :
    exec (.ldVxK x) s = .next s.startWait.settleLatch := by
  rw [exec, execLdVxK, hw]; rfl

theorem exec_ldVxK_wait (x : Nibble) (hw : s.waiting = true) (hr : s.received = false) :
    exec (.ldVxK x) s = .next s := by
  rw [exec, execLdVxK, hw, hr]; rfl

theorem exec_ldVxK_end (x : Nibble) (hw : s.waiting = true) (hr : s.received = true) :
    exec (.ldVxK x) s = .next (s.endWait.settleLatch.setV x (s.latchedKey.setWidth 8)).advance := by
  rw [exec, execLdVxK, hw, hr]; rfl

/-! What an instruction runs. -/

/-- `Ran s i t`: from `s` the instruction `i` leaves `t`, by one of the chains of operations the instruction set has.
A constructor says which instructions run its chain, and keeps of the operands what the invariants ask for. -/
inductive Ran (s : State) : Instr → State → Prop
  | raise {i : Instr} {kind : FaultKind} (hkind : kind ≠ .fetch) (info : Option Nat) : Ran s i (s.raiseIn i kind info)
  | jump {i : Instr} (a : Word) : Ran s i (s.jump a)
  | call (nnn : Addr12) (hsp : s.sp ≠ s.params.stackDepth) (a b : Word) : Ran s (.call nnn) ((s.push a).jump b)
  | ret (a : Word) : Ran s .ret (s.dropTop.jump a)
  | setV {i : Instr} {x : Nibble} (hx : namesRegister i x) (b : Byte) : Ran s i (s.setV x b).advance
  | setVFlag {i : Instr} {x : Nibble} (hx : namesRegister i x) (hf : writesFlag i) (b : Byte) (c : Bool) :
    Ran s i (s.setVFlag x b c).advance
  | rnd (x : Nibble) (nn b : Byte) : Ran s (.rnd x nn) (s.drawn.setV x b).advance
  | setI {i : Instr} (hi : (∃ nnn, i = .ldI nnn) ∨ ∃ x, i = .ldF x) (a : Word) : Ran s i (s.setI a).advance
  | addI (x : Nibble) (a : Word) (c : Bool) : Ran s (.addI x) ((s.setI a).setFlag c).advance
  | cls : Ran s .cls (s.setFb []).markDirty.advance
  | drw (x y n : Nibble) : Ran s (.drw x y n) (s.drawnOver (s.drawSprite (s.getV x) (s.getV y) n.toNat))
  | store {i : Instr} (hi : (∃ x, i = .ldB x) ∨ ∃ x, i = .ldMemVx x) (a : Nat) (bs : List Byte) :
    Ran s i (s.writeBytes a bs).advance
  | load (x : Nibble) : Ran s (.ldVxMem x) (s.loadRegs (x.toNat + 1)).advance
  | setDT (x : Nibble) : Ran s (.ldDTVx x) (s.setDT (s.getV x)).advance
  | setST (x : Nibble) : Ran s (.ldSTVx x) (s.setST (s.getV x)).advance
  | startWait (x : Nibble) : Ran s (.ldVxK x) s.startWait.settleLatch
  | wait (x : Nibble) : Ran s (.ldVxK x) s
  | endWait (x : Nibble) (b : Byte) : Ran s (.ldVxK x) (s.endWait.settleLatch.setV x b).advance

theorem Ran.skipIf (s : State) (i : Instr) (c : Bool) : Ran s i (s.skipIf c) :=
  s.skipIf_eq_jump c ▸ .jump _

/-- A meaning that faults on a condition and else ends in `t`. -/
theorem Ran.ite {r : Result} {p : Prop} [Decidable p] {u v : State} (hr : r = if p then .next u else .next v)
    (hu : p → Ran s i u) (hv : ¬p → Ran s i v) : ∃ t, r = .next t ∧ Ran s i t := by
  split at hr
  · next hp => exact ⟨u, hr, hu hp⟩
  · next hp => exact ⟨v, hr, hv hp⟩

theorem Ran.keySkip (s : State) (i : Instr) (b : Byte) (f : Nibble → Bool) : Ran s i (s.keySkip i b f) := by
  unfold State.keySkip
  split
  · exact .raise (by decide) _
  · exact .skipIf s i _

/-- Every instruction answers a next state, which one of the chains leaves. -/
theorem exec_ran (i : Instr) (s : State) : ∃ t, exec i s = .next t ∧ Ran s i t := by
  cases i with
  | cls => exact ⟨_, rfl, .cls⟩
  | ret => exact Ran.ite (exec_ret s) (fun _ => .raise (by decide) _) (fun _ => .ret _)
  | jp _ | jpV0 _ => exact ⟨_, rfl, .jump _⟩
  | call nnn => exact Ran.ite (exec_call nnn s) (fun _ => .raise (by decide) _) (fun hsp => .call nnn hsp _ _)
  | seImm _ _ | sneImm _ _ | seReg _ _ | sneReg _ _ => exact ⟨_, rfl, .skipIf s _ _⟩
  | ldImm _ _ | addImm _ _ | ldReg _ _ | orReg _ _ | andReg _ _ | xorReg _ _ | ldVxDT _ =>
    refine ⟨_, rfl, .setV ?_ _⟩
    rfl
  | addReg _ _ | sub _ _ | shr _ _ | subn _ _ | shl _ _ =>
    refine ⟨_, rfl, .setVFlag ?_ ?_ _ _⟩
    · rfl
    · trivial
  | rnd x nn => exact ⟨_, rfl, .rnd x nn _⟩
  | ldI nnn => exact ⟨_, rfl, .setI (.inl ⟨nnn, rfl⟩) _⟩
  | ldF x => exact ⟨_, rfl, .setI (.inr ⟨x, rfl⟩) _⟩
  | addI x => exact Ran.ite (exec_addI x s) (fun _ => .raise (by decide) _) (fun _ => .addI x _ _)
  | drw x y n => exact Ran.ite (exec_drw x y n s) (fun _ => .raise (by decide) _) (fun _ => .drw x y n)
  | ldB x => exact Ran.ite (exec_ldB x s) (fun _ => .store (.inl ⟨x, rfl⟩) _ _) (fun _ => .raise (by decide) _)
  | ldMemVx x =>
    exact Ran.ite (exec_ldMemVx x s) (fun _ => .store (.inr ⟨x, rfl⟩) _ _) (fun _ => .raise (by decide) _)
  | ldVxMem x => exact Ran.ite (exec_ldVxMem x s) (fun _ => .load x) (fun _ => .raise (by decide) _)
  | skp x => exact ⟨_, exec_skp x s, .keySkip s _ _ _⟩
  | sknp x => exact ⟨_, exec_sknp x s, .keySkip s _ _ _⟩
  | ldDTVx x => exact ⟨_, rfl, .setDT x⟩
  | ldSTVx x => exact ⟨_, rfl, .setST x⟩
  | ldVxK x =>
    cases hw : s.waiting with
    | false => exact ⟨_, exec_ldVxK_start x hw, .startWait x⟩
    | true =>
      cases hr : s.received with
      | false => exact ⟨_, exec_ldVxK_wait x hw hr, .wait x⟩
      | true => exact ⟨_, exec_ldVxK_end x hw hr, .endWait x _⟩

theorem ran_of_exec (h : exec i s = .next t) : Ran s i t := by
  obtain ⟨u, hu, hran⟩ := exec_ran i s
  rw [h] at hu
  cases hu
  exact hran

end Sys2Proof.Machine
end

section
/-! PROOFS. The invariant of the block through a step and through every operation of its agents (10_state.md R36,
60_exceptions.md sections 4 and 6). -/

namespace Sys2Proof.Machine

/-! Through an instruction. -/

/-- Every chain of operations keeps the invariant. The stack grows only below its depth, a draw and a store write inside
their arrays, a wait that begins or ends leaves the latch in order; the others write nothing the invariant reads. -/
theorem Ran.inv {s t : State} {i : Instr} (h : Ran s i t) (hinv : s.Inv) : t.Inv := by
  obtain ⟨hmem, hstack, hfb, hout, hsp, hlatch⟩ := hinv
  cases h with
  | call nnn hfree a b =>
    have hlt : s.sp < s.params.stackDepth := Nat.lt_of_le_of_ne hsp hfree
    exact ⟨hmem, sparseSet_wf hstack hlt a, hfb, hout, hlt, hlatch⟩
  | ret a => exact ⟨hmem, hstack, hfb, hout, Nat.le_trans (Nat.sub_le _ _) hsp, hlatch⟩
  | cls => exact ⟨hmem, hstack, sparseWf_nil _ _, hout, hsp, hlatch⟩
  | drw x y n =>
    have hdraws := s.drawSprite_draws (s.getV x) (s.getV y) n.toNat (Nat.le_of_lt n.isLt) hfb
    exact ⟨hmem, hstack, hdraws.wf, hout, hsp, hlatch⟩
  | store _ a bs => exact ⟨Memory.wf_memWriteList hmem a bs, hstack, hfb, hout, hsp, hlatch⟩
  | load x =>
    rw [State.loadRegs_eq]
    exact ⟨hmem, hstack, hfb, hout, hsp, hlatch⟩
  | startWait x => exact ⟨hmem, hstack, hfb, hout, hsp, fun _ => rfl⟩
  | endWait x b => exact ⟨hmem, hstack, hfb, hout, hsp, fun hr => absurd hr Bool.false_ne_true⟩
  | _ => exact ⟨hmem, hstack, hfb, hout, hsp, hlatch⟩

/-- No chain of operations changes the parameters (log entry 1). -/
theorem Ran.params {s t : State} {i : Instr} (h : Ran s i t) : t.params = s.params := by
  cases h with
  | load x => rw [State.advance_params, State.loadRegs_params]
  | _ => rfl

/-! Through a step. -/

/-- What no raise of a fault and no instruction breaks, no step breaks. -/
theorem step_keeps {P : State → Prop} {s t : State} (hs : P s) (hraise : ∀ kind w info, P (s.raise kind w info))
    (hran : ∀ i u, Ran s i u → P u) (h : step s = .next t) : P t := by
  rcases step_cases s with ⟨-, hstep⟩ | ⟨-, hstep⟩ | ⟨-, hstep⟩ | ⟨i, -, -, hstep⟩ <;> rw [hstep] at h
  · cases h; exact hs
  · cases h; exact hraise _ _ _
  · cases h; exact hraise _ _ _
  · exact hran i t (ran_of_exec h)

theorem step_inv {s t : State} (hinv : s.Inv) (h : step s = .next t) : t.Inv :=
  step_keeps (P := State.Inv) hinv (fun _ _ _ => hinv) (fun _ _ hran => hran.inv hinv) h

theorem step_params {s t : State} (h : step s = .next t) : t.params = s.params :=
  step_keeps (P := fun u => u.params = s.params) rfl (fun _ _ _ => rfl) (fun _ _ hran => hran.params) h

/-- Settles O8: reset leaves every array empty, the stack pointer 0 and no key captured. -/
theorem resetMeetsTheInvariant : Obligations.ResetMeetsTheInvariant := by
  refine ⟨?_, fun _ _ => .inl rfl⟩
  exact ⟨Memory.wf_reset, sparseWf_nil _ _, sparseWf_nil _ _, sparseWf_nil _ _, Nat.zero_le _,
    fun hr => absurd hr Bool.false_ne_true⟩

/-- Settles O9: whatever chain of operations a step runs keeps the invariant, and a raised fault writes none of it. -/
theorem stepKeepsTheInvariant : Obligations.StepKeepsTheInvariant :=
  fun _ _ hinv h => step_inv hinv h

/-! Through an operation of the block. -/

/-- What an operation other than a step does to a live block. -/
def HostOp.effect : HostOp → State → State
  | .load bytes, s => s.placeProgram bytes
  | .tick, s => { s with dt := countDown s.dt, st := countDown s.st }
  | .pressKey k, s => (s.setKey (BitVec.ofNat 4 k) true).latchKey (BitVec.ofNat 4 k)
  | .releaseKey k, s => s.setKey (BitVec.ofNat 4 k) false
  | .toggleFilter, s => { s with filterOn := !s.filterOn }
  | .fbWrite x y b, s => s.setFb (gridWrite s.params s.fb x y b)
  | .fbMarkDirty, s => s.markDirty
  | .fbConsumeDirty, s => { s with fbDirty := false }
  | .filterPass, s => { s with out := s.filterOutput, outDirty := true }
  | .outConsumeDirty, s => { s with outDirty := false }
  | .step, s | .fbRead _ _, s | .outRead _ _, s => s

/-- An operation that answers a next state is a step, or its effect on a block without a fault. -/
theorem HostOp.apply_cases {op : HostOp} {s t : State} (h : op.apply s = .next t) :
    Machine.step s = .next t ∨ t = s.unlessFaulted op.effect := by
  cases op with
  | step => exact .inl h
  | load bytes =>
    simp only [HostOp.apply, State.load] at h
    split at h <;> cases h
    exact .inr rfl
  | pressKey k =>
    simp only [HostOp.apply, State.pressKey] at h
    split at h <;> cases h
    exact .inr rfl
  | releaseKey k =>
    simp only [HostOp.apply, State.releaseKey] at h
    split at h <;> cases h
    exact .inr rfl
  | fbRead x y | outRead x y =>
    simp only [HostOp.apply] at h
    split at h <;> cases h
    exact .inr (ite_self s).symm
  | tick | toggleFilter | fbWrite x y b | fbMarkDirty | fbConsumeDirty | filterPass | outConsumeDirty =>
    cases h
    exact .inr rfl

/-- The invariant holds, of the parameters `p`. -/
def State.InvOf (p : Config.Params) (s : State) : Prop := s.Inv ∧ s.params = p

/-- The effects that write an array write inside it, a press is captured only by a pending wait, and the others write
nothing the invariant reads. -/
theorem HostOp.effect_inv (op : HostOp) {s : State} (hinv : s.Inv) : (op.effect s).InvOf s.params := by
  obtain ⟨hmem, hstack, hfb, hout, hsp, hlatch⟩ := hinv
  cases op with
  | load bytes =>
    refine ⟨⟨?_, hstack, hfb, hout, hsp, hlatch⟩, rfl⟩
    exact Memory.wf_memWriteList (Memory.wf_memWriteList hmem _ _) _ _
  | pressKey k =>
    change State.InvOf s.params ((s.setKey _ true).latchKey _)
    unfold State.latchKey
    split
    · next hw => exact ⟨⟨hmem, hstack, hfb, hout, hsp, fun _ => hw⟩, rfl⟩
    · exact ⟨⟨hmem, hstack, hfb, hout, hsp, hlatch⟩, rfl⟩
  | fbWrite x y b => exact ⟨⟨hmem, hstack, gridWrite_wf s.params hfb x y b, hout, hsp, hlatch⟩, rfl⟩
  | filterPass => exact ⟨⟨hmem, hstack, hfb, sparseOfFn_wf _ _ _, hsp, hlatch⟩, rfl⟩
  | _ => exact ⟨⟨hmem, hstack, hfb, hout, hsp, hlatch⟩, rfl⟩

/-- What the effect on a live block keeps the operation keeps, since a faulted block stays as it is. -/
theorem State.unlessFaulted_keeps {P : State → Prop} {s : State} {f : State → State} (hs : P s) (hf : P (f s)) :
    P (s.unlessFaulted f) := by
  unfold State.unlessFaulted
  split
  · exact hs
  · exact hf

/-- Every operation keeps the invariant and the parameters. -/
theorem HostOp.apply_inv {op : HostOp} {s t : State} (hinv : s.Inv) (h : op.apply s = .next t) :
    t.InvOf s.params := by
  rcases HostOp.apply_cases h with hstep | rfl
  · exact ⟨step_inv hinv hstep, step_params hstep⟩
  · exact State.unlessFaulted_keeps ⟨hinv, rfl⟩ (op.effect_inv hinv)

/-- A created block meets the invariant: the arrays are empty or drawn to at most their sizes (10_state.md R35). -/
theorem State.create_inv (p : Config.Params) (r : ResetPolicy) : (State.create p r).InvOf p := by
  cases r with
  | zero =>
    refine ⟨⟨sparseWf_nil _ _, sparseWf_nil _ _, sparseWf_nil _ _, sparseWf_nil _ _, Nat.zero_le _, ?_⟩, rfl⟩
    exact fun hr => absurd hr Bool.false_ne_true
  | draw d =>
    have hstack : SparseWf 0x0000#16 p.stackDepth (sparseWriteList 0x0000#16 [] 0 (d.stack.take p.stackDepth)) :=
      sparseWriteList_wf _ (sparseWf_nil _ _) (by simp)
    have hmem : Memory.wf (sparseWriteList 0x00#8 [] 0 (d.mem.take Config.memSize)) :=
      sparseWriteList_wf _ (sparseWf_nil _ _) (by simp)
    refine ⟨⟨hmem, hstack, sparseWf_nil _ _, sparseWf_nil _ _, Nat.zero_le _, ?_⟩, rfl⟩
    exact fun hr => absurd hr Bool.false_ne_true

/-- Any interleaving keeps the invariant and the parameters, operation by operation (60_exceptions.md R222). -/
theorem Session.performAll_inv (ops : List HostOp) {p : Config.Params} {e f : Session} (he : e.block.InvOf p)
    (h : Session.performAll ops e = .next f) : f.block.InvOf p := by
  induction ops generalizing e with
  | nil => cases h; exact he
  | cons op ops ih =>
    rw [Session.performAll] at h
    cases hop : e.perform op with
    | fault r => rw [hop] at h; cases h
    | refused r => rw [hop] at h; cases h
    | next e' =>
      rw [hop] at h
      obtain ⟨-, -, t, ht, rfl⟩ := Session.perform_next hop
      refine ih ?_ h
      obtain ⟨hinv, rfl⟩ := he
      rw [Session.record_block]
      exact HostOp.apply_inv hinv ht

/-- Settles O10: each operation keeps the invariant with the parameters, so any sequence of them does. -/
theorem interleavingsKeepTheInvariant : Obligations.InterleavingsKeepTheInvariant :=
  ⟨fun _ _ _ hinv h => HostOp.apply_inv hinv h, State.create_inv,
    fun ops _ _ hinv h => Session.performAll_inv ops ⟨hinv, rfl⟩ h⟩

end Sys2Proof.Machine
end

section
/-! PROOFS. The step's fetch, its faults, and its successful end (41_control_flow.md section 1, 60_exceptions.md
section 1, 70_reset_and_hazards.md section 4). -/

namespace Sys2Proof.Machine

/-- Settles O3: bytes decode as the word they make, and a step runs what the fetched word decodes to. -/
theorem stepRunsTheDecodedInstruction : Obligations.StepRunsTheDecodedInstruction := by
  intro s i rest hsafe heven hin hbytes
  refine step_of_instr hsafe (s.fetchable_iff.2 ⟨heven, hin⟩) ?_
  rw [decodeBytes] at hbytes
  split at hbytes <;> cases hbytes
  next hw => exact hw

/-- Settles O4: the three ways of a step that run no instruction, in the order they are checked. -/
theorem stepWithoutAnInstruction : Obligations.StepWithoutAnInstruction := by
  intro s
  refine ⟨step_of_fault, fun hsafe hpc => step_of_not_fetchable hsafe ?_, fun w hsafe heven hin hw => ?_⟩
  · rw [State.fetchable_iff]; omega
  · exact step_of_unknown hsafe (s.fetchable_iff.2 ⟨heven, hin⟩) hw

/-! Which faults an instruction raises. -/

/-- A chain of operations leaves the fault record alone, or is the raise of a fault other than the fetch fault. -/
theorem Ran.fault_eq_or_raise {i : Instr} {s t : State} (h : Ran s i t) :
    t.fault = s.fault ∨ ∃ kind info, kind ≠ .fetch ∧ t = s.raiseIn i kind info := by
  cases h with
  | raise hkind info => exact .inr ⟨_, info, hkind, rfl⟩
  | load x => exact .inl (s.loadRegs_fault _)
  | _ => exact .inl rfl

/-- Settles O5: each way of a step answers a next state; one that writes the fault record raises a fault, whose word is
the instruction's encoding, which is the fetched word. -/
theorem faultsArePrecise : Obligations.FaultsArePrecise := by
  intro s
  rcases step_cases s with ⟨hfault, hstep⟩ | ⟨-, hstep⟩ | ⟨-, hstep⟩ | ⟨i, hsafe, hword, hstep⟩
  · exact ⟨s, hstep, fun r hsafe => absurd hsafe hfault⟩
  · refine ⟨_, hstep, fun r _ hr => ?_⟩
    cases hr
    exact ⟨rfl, rfl, .inl ⟨rfl, rfl⟩⟩
  · refine ⟨_, hstep, fun r _ hr => ?_⟩
    cases hr
    exact ⟨rfl, rfl, .inr ⟨nofun, rfl⟩⟩
  · obtain ⟨t, ht, hran⟩ := exec_ran i s
    refine ⟨t, hstep.trans ht, fun r _ hr => ?_⟩
    rcases hran.fault_eq_or_raise with hkept | ⟨kind, info, hkind, rfl⟩
    · rw [hkept, hsafe] at hr; cases hr
    · cases hr
      exact ⟨rfl, rfl, .inr ⟨hkind, congrArg some hword⟩⟩

/-- An instruction that leaves the record of a live block alone raises no kind of fault. -/
theorem not_raised {s t : State} (hsafe : s.fault = none) (ht : t.fault = s.fault) (kind : FaultKind) :
    ¬ ∃ r, t.fault = some r ∧ r.kind = kind := by
  rintro ⟨r, hr, -⟩
  rw [ht, hsafe] at hr
  cases hr

/-- A meaning that raises one kind of fault when `p` holds, and else leaves the record alone. -/
theorem raised_iff_of_ite {i : Instr} {s t u : State} {p : Prop} [Decidable p] {k : FaultKind} {info : Option Nat}
    (hsafe : s.fault = none) (h : (if p then .next (s.raiseIn i k info) else .next u : Result) = .next t)
    (hu : u.fault = s.fault) (kind : FaultKind) :
    (∃ r, t.fault = some r ∧ r.kind = kind) ↔ kind = k ∧ p := by
  split at h <;> cases h
  · next hp =>
    simp only [State.raiseIn_fault, Option.some.injEq, exists_eq_left', hp, and_true]
    exact eq_comm
  · next hp =>
    simp only [not_raised hsafe hu, hp, and_false]

/-- A meaning that needs `p` to hold and else raises one kind of fault. -/
theorem raised_iff_of_ite_not {i : Instr} {s t u : State} {p : Prop} [Decidable p] {k : FaultKind} {info : Option Nat}
    (hsafe : s.fault = none) (h : (if p then .next u else .next (s.raiseIn i k info) : Result) = .next t)
    (hu : u.fault = s.fault) (kind : FaultKind) :
    (∃ r, t.fault = some r ∧ r.kind = kind) ↔ kind = k ∧ ¬ p := by
  rw [← ite_not] at h
  exact raised_iff_of_ite hsafe h hu kind

theorem raised_iff_of_keySkip {i : Instr} {s : State} {b : Byte} {f : Nibble → Bool} (hsafe : s.fault = none)
    (kind : FaultKind) :
    (∃ r, (s.keySkip i b f).fault = some r ∧ r.kind = kind) ↔ kind = .keyIndex ∧ 15 < b.toNat := by
  by_cases hb : 15 < b.toNat
  · simp only [s.keySkip_of_gt i f hb, State.raiseIn_fault, Option.some.injEq, exists_eq_left', hb, and_true]
    exact eq_comm
  · have hk : b.toNat = (b.setWidth 4 : Nibble).toNat := by rw [BitVec.toNat_setWidth]; omega
    simp only [s.keySkip_of_eq i f hk, not_raised hsafe (s.skipIf_fault _), hb, and_false]

/-- FX0A leaves the fault record alone in each of its states. -/
theorem fault_of_exec_ldVxK {x : Nibble} {s t : State} (h : exec (.ldVxK x) s = .next t) : t.fault = s.fault := by
  cases hw : s.waiting with
  | false => rw [exec_ldVxK_start x hw] at h; cases h; rfl
  | true =>
    cases hr : s.received with
    | false => rw [exec_ldVxK_wait x hw hr] at h; cases h; rfl
    | true => rw [exec_ldVxK_end x hw hr] at h; cases h; rfl

/-- Settles O6: an instruction that checks nothing leaves the record alone, each other form raises its one kind exactly
when its check fails. -/
theorem instructionsFaultExactlyWhen : Obligations.InstructionsFaultExactlyWhen := by
  intro i s t hsafe h kind
  cases i with
  | ret => rw [exec_ret] at h; simp [raised_iff_of_ite hsafe h rfl]
  | call nnn => rw [exec_call] at h; simp [raised_iff_of_ite hsafe h rfl]
  | addI x => rw [exec_addI] at h; simp [raised_iff_of_ite hsafe h rfl, State.indexSum]
  | drw x y n => rw [exec_drw] at h; simp [raised_iff_of_ite hsafe h rfl, State.spriteOutside_iff]
  | ldB x => rw [exec_ldB] at h; simp [raised_iff_of_ite_not hsafe h rfl, State.reaches_iff]
  | ldMemVx x => rw [exec_ldMemVx] at h; simp [raised_iff_of_ite_not hsafe h rfl, State.reaches_iff]
  | ldVxMem x => rw [exec_ldVxMem] at h; simp [raised_iff_of_ite_not hsafe h (s.loadRegs_fault _), State.reaches_iff]
  | skp x => rw [exec_skp] at h; cases h; simp [raised_iff_of_keySkip hsafe]
  | sknp x => rw [exec_sknp] at h; cases h; simp [raised_iff_of_keySkip hsafe]
  | ldVxK x => simp [not_raised hsafe (fault_of_exec_ldVxK h)]
  | _ => cases h; simp [hsafe]

/-! The successful end. -/

/-- A step over a fetchable jump to itself answers the same state (70_reset_and_hazards.md R251). -/
theorem step_of_successfulEnd {a : Addr12} {s : State} (h : s.SuccessfulEnd a) : step s = .next s := by
  obtain ⟨hsafe, hfetch, hpc, hword⟩ := h
  have hjp : decode s.fetchedWord = .instr (.jp a) := by rw [hword]; exact decode_encode (.jp a)
  rw [step_of_instr hsafe hfetch hjp, exec_jp, ← hpc]
  rfl

/-- A machine whose step answers the same state stays there for any number of steps. -/
theorem run_of_step_self {M : Host.Core} {s : M.State} (h : M.step s = .next s) (n : Nat) : M.run n s = .next s := by
  induction n with
  | zero => rfl
  | succ n ih => rw [Host.Core.run, h]; exact ih

/-- Settles O58: one step answers the same state, so any number of them does. -/
theorem successfulEndIsStable : Obligations.SuccessfulEndIsStable :=
  fun _ _ n h => run_of_step_self (M := Sys2Proof.core) (step_of_successfulEnd h) n

end Sys2Proof.Machine
end

section
/-! PROOFS. Which instructions own which state: the chains an instruction can run write only what is theirs
(10_state.md sections 1 to 6). -/

namespace Sys2Proof.Machine

section
variable {s t : State} {i : Instr}

theorem Ran.names_of_getV_ne (h : Ran s i t) {r : Nibble} (hne : t.getV r ≠ s.getV r) :
    namesRegister i r ∨ (r = 0xF#4 ∧ writesFlag i) := by
  cases h with
  | @setV _ x hx b =>
    rw [State.advance_getV, State.getV_setV] at hne
    split at hne
    · next hr => exact .inl (hr ▸ hx)
    · exact absurd rfl hne
  | @setVFlag _ x hx hf b c =>
    rw [State.advance_getV, State.getV_setVFlag] at hne
    split at hne
    · next hr => exact .inr ⟨hr.symm, hf⟩
    · split at hne
      · next hr => exact .inl (hr ▸ hx)
      · exact absurd rfl hne
  | rnd x nn b | endWait x b =>
    rw [State.advance_getV, State.getV_setV] at hne
    split at hne
    · next hr => exact .inl hr.symm
    · exact absurd rfl hne
  | addI x a c =>
    rw [State.advance_getV, State.getV_setFlag] at hne
    split at hne
    · next hr => exact .inr ⟨hr.symm, trivial⟩
    · exact absurd rfl hne
  | drw x y n =>
    rw [State.drawnOver, State.advance_getV, State.markDirty_getV, State.getV_setFlag] at hne
    split at hne
    · next hr => exact .inr ⟨hr.symm, trivial⟩
    · exact absurd rfl hne
  | load x =>
    rw [State.advance_getV, State.getV_loadRegs s _ (Nat.succ_le_of_lt x.isLt)] at hne
    split at hne
    · next hr => exact .inl (Nat.le_of_lt_succ hr)
    · exact absurd rfl hne
  | _ => exact absurd rfl hne

theorem Ran.of_i_ne (h : Ran s i t) (hne : t.i ≠ s.i) :
    (∃ nnn, i = .ldI nnn) ∨ (∃ x, i = .addI x) ∨ ∃ x, i = .ldF x := by
  cases h with
  | setI hi a => exact hi.imp_right .inr
  | addI x a c => exact .inr (.inl ⟨x, rfl⟩)
  | load x => exact absurd (s.loadRegs_i _) hne
  | _ => exact absurd rfl hne

theorem Ran.of_stack_ne (h : Ran s i t) (hne : t.stack ≠ s.stack) : ∃ nnn, i = .call nnn := by
  cases h with
  | call nnn => exact ⟨nnn, rfl⟩
  | load x => exact absurd (s.loadRegs_stack _) hne
  | _ => exact absurd rfl hne

theorem Ran.of_sp_ne (h : Ran s i t) (hne : t.sp ≠ s.sp) : i = .ret ∨ ∃ nnn, i = .call nnn := by
  cases h with
  | call nnn => exact .inr ⟨nnn, rfl⟩
  | ret => exact .inl rfl
  | load x => exact absurd (s.loadRegs_sp _) hne
  | _ => exact absurd rfl hne

theorem Ran.of_dt_ne (h : Ran s i t) (hne : t.dt ≠ s.dt) : ∃ x, i = .ldDTVx x := by
  cases h with
  | setDT x => exact ⟨x, rfl⟩
  | load x => exact absurd (s.loadRegs_dt _) hne
  | _ => exact absurd rfl hne

theorem Ran.of_st_ne (h : Ran s i t) (hne : t.st ≠ s.st) : ∃ x, i = .ldSTVx x := by
  cases h with
  | setST x => exact ⟨x, rfl⟩
  | load x => exact absurd (s.loadRegs_st _) hne
  | _ => exact absurd rfl hne

theorem Ran.of_wait_ne (h : Ran s i t) (hne : t.waiting ≠ s.waiting ∨ t.received ≠ s.received) :
    ∃ x, i = .ldVxK x := by
  cases h with
  | startWait x | endWait x => exact ⟨x, rfl⟩
  | load x => exact (hne.elim (absurd (s.loadRegs_waiting _)) (absurd (s.loadRegs_received _)))
  | _ => exact hne.elim (absurd rfl) (absurd rfl)

/-- Only under the other reading does FX0A touch the latched key or take a free value (log entry 15). -/
theorem State.latch_written_of_settleLatch_ne
    (hne : s.settleLatch.latchedKey ≠ s.latchedKey ∨ s.settleLatch.draws ≠ s.draws) :
    s.params.latch = .written := by
  cases hl : s.params.latch with
  | written => rfl
  | kept =>
    rw [s.settleLatch_of_kept hl] at hne
    exact hne.elim (absurd rfl) (absurd rfl)

theorem Ran.of_latchedKey_ne (h : Ran s i t) (hne : t.latchedKey ≠ s.latchedKey) :
    s.params.latch = .written ∧ ∃ x, i = .ldVxK x := by
  cases h with
  | startWait x => exact ⟨s.startWait.latch_written_of_settleLatch_ne (.inl hne), x, rfl⟩
  | endWait x => exact ⟨s.endWait.latch_written_of_settleLatch_ne (.inl hne), x, rfl⟩
  | load x => exact absurd (s.loadRegs_latchedKey _) hne
  | _ => exact absurd rfl hne

theorem Ran.of_draws_ne (h : Ran s i t) (hne : t.draws ≠ s.draws) :
    (∃ x nn, i = .rnd x nn) ∨ (s.params.latch = .written ∧ ∃ x, i = .ldVxK x) := by
  cases h with
  | rnd x nn b => exact .inl ⟨x, nn, rfl⟩
  | startWait x => exact .inr ⟨s.startWait.latch_written_of_settleLatch_ne (.inr hne), x, rfl⟩
  | endWait x => exact .inr ⟨s.endWait.latch_written_of_settleLatch_ne (.inr hne), x, rfl⟩
  | load x => exact absurd (s.loadRegs_draws _) hne
  | _ => exact absurd rfl hne

theorem Ran.of_frame_ne (h : Ran s i t) (hne : t.fb ≠ s.fb ∨ t.fbDirty ≠ s.fbDirty) :
    i = .cls ∨ ∃ x y n, i = .drw x y n := by
  cases h with
  | cls => exact .inl rfl
  | drw x y n => exact .inr ⟨x, y, n, rfl⟩
  | load x => exact hne.elim (absurd (s.loadRegs_fb _)) (absurd (s.loadRegs_fbDirty _))
  | _ => exact hne.elim (absurd rfl) (absurd rfl)

theorem Ran.of_mem_ne (h : Ran s i t) (hne : t.mem ≠ s.mem) : (∃ x, i = .ldB x) ∨ ∃ x, i = .ldMemVx x := by
  cases h with
  | store hi a bs => exact hi
  | load x => exact absurd (s.loadRegs_mem _) hne
  | _ => exact absurd rfl hne

/-- The keys, the output and its flag, and the filter are no instruction's to write. -/
theorem Ran.kept (h : Ran s i t) :
    t.keys = s.keys ∧ t.out = s.out ∧ t.outDirty = s.outDirty ∧ t.filterOn = s.filterOn := by
  cases h with
  | load x => exact ⟨s.loadRegs_keys _, s.loadRegs_out _, s.loadRegs_outDirty _, s.loadRegs_filterOn _⟩
  | _ => exact ⟨rfl, rfl, rfl, rfl⟩

end

/-- Settles O30: a chain writes a piece of state only where its instruction owns that piece. -/
theorem stateChangesOnlyByItsInstructions : Obligations.StateChangesOnlyByItsInstructions := by
  intro i s t h
  have hran := ran_of_exec h
  obtain ⟨hkeys, hout, hdirty, hfilter⟩ := hran.kept
  exact ⟨fun _ => hran.names_of_getV_ne, hran.of_i_ne, hran.of_stack_ne, hran.of_sp_ne, hran.of_dt_ne, hran.of_st_ne,
    hran.of_wait_ne, hran.of_latchedKey_ne, hran.of_frame_ne, hran.of_mem_ne, hran.of_draws_ne, hkeys, hout, hdirty,
    hfilter, hran.params⟩

/-! The pixels stay monochrome. -/

/-- A pixel toggled between 0x00 and 0xFF. -/
theorem xor_full_of_monochrome {b : Byte} (h : b = 0x00#8 ∨ b = 0xFF#8) :
    b ^^^ 0xFF#8 = 0x00#8 ∨ b ^^^ 0xFF#8 = 0xFF#8 := by
  rcases h with rfl | rfl <;> decide

/-- A canonical frame is monochrome when its pixels inside the frame are: every other position reads the fill value or
is a pixel inside (log entry 4). -/
theorem gridPixel_monochrome {p : Config.Params} {g : Grid} (hg : SparseWf 0x00#8 (p.fbW * p.fbH) g)
    (hin : ∀ x y, x < p.fbW → y < p.fbH → gridPixel p g x y = 0x00#8 ∨ gridPixel p g x y = 0xFF#8) (x y : Nat) :
    gridPixel p g x y = 0x00#8 ∨ gridPixel p g x y = 0xFF#8 := by
  by_cases hk : gridKey p.fbW x y < p.fbW * p.fbH
  · have hw : 0 < p.fbW := Nat.pos_of_mul_pos_right (Nat.zero_lt_of_lt hk)
    have hcol := Nat.mod_lt (gridKey p.fbW x y) hw
    have hrow : gridKey p.fbW x y / p.fbW < p.fbH := Nat.div_lt_of_lt_mul hk
    have hkey : gridKey p.fbW (gridKey p.fbW x y % p.fbW) (gridKey p.fbW x y / p.fbW) = gridKey p.fbW x y :=
      Nat.div_add_mod' _ _
    have h := hin _ _ hcol hrow
    rwa [gridPixel, hkey] at h
  · exact .inl (sparseGet_outside hg (Nat.le_of_not_lt hk))

/-- A draw toggles pixels or leaves them, so it keeps them monochrome. -/
theorem Draws.monochrome {p : Config.Params} {cov : Nat → Nat → Prop} {c c' : Canvas} (h : Draws p cov c c')
    (hc : ∀ x y, gridPixel p c.grid x y = 0x00#8 ∨ gridPixel p c.grid x y = 0xFF#8) (x y : Nat) :
    gridPixel p c'.grid x y = 0x00#8 ∨ gridPixel p c'.grid x y = 0xFF#8 := by
  refine gridPixel_monochrome h.wf (fun px py hx hy => ?_) x y
  by_cases hcov : cov px py
  · rw [h.on px py hx hy hcov]; exact xor_full_of_monochrome (hc px py)
  · rw [h.off px py hx hy hcov]; exact hc px py

theorem Ran.monochrome {s t : State} {i : Instr} (h : Ran s i t) (hinv : s.Inv) (hmono : s.Monochrome) :
    t.Monochrome := by
  cases h with
  | cls => exact fun _ _ => .inl rfl
  | drw x y n =>
    obtain ⟨-, -, hfb, -⟩ := hinv
    exact (s.drawSprite_draws (s.getV x) (s.getV y) n.toNat (Nat.le_of_lt n.isLt) hfb).monochrome hmono
  | load x => rw [State.loadRegs_eq]; exact hmono
  | _ => exact hmono

/-- Settles O11: of all chains only 00E0 and DXYN write pixels, and both keep them monochrome. -/
theorem stepKeepsPixelsMonochrome : Obligations.StepKeepsPixelsMonochrome :=
  fun _ _ hinv hmono h =>
    step_keeps (P := State.Monochrome) hmono (fun _ _ _ => hmono) (fun _ _ hran => hran.monochrome hinv hmono) h

end Sys2Proof.Machine
end

section
/-! PROOFS. No step reads the sound timer: writing ST before an instruction or after it is the same (10_state.md
section 4). -/

namespace Sys2Proof.Machine

theorem State.loadRegs_setST (s : State) (b : Byte) (n : Nat) : (s.setST b).loadRegs n = (s.loadRegs n).setST b := by
  induction n with
  | zero => rfl
  | succ n ih => rw [State.loadRegs, ih, State.loadRegs]; rfl

theorem drawRows_setST (s : State) (b x0 y0 : Byte) (n : Nat) (c : Canvas) :
    drawRows (s.setST b) x0 y0 n c = drawRows s x0 y0 n c := by
  induction n with
  | zero => rfl
  | succ n ih => rw [drawRows, ih, drawRows]; rfl

theorem State.drawSprite_setST (s : State) (b x0 y0 : Byte) (n : Nat) :
    (s.setST b).drawSprite x0 y0 n = s.drawSprite x0 y0 n :=
  drawRows_setST s b x0 y0 n _

theorem State.skipIf_setST (s : State) (b : Byte) (c : Bool) : (s.setST b).skipIf c = (s.skipIf c).setST b := by
  cases c <;> rfl

theorem State.keySkip_setST (s : State) (b : Byte) (i : Instr) (k : Byte) (f : Nibble → Bool) :
    (s.setST b).keySkip i k f = (s.keySkip i k f).setST b := by
  unfold State.keySkip
  split
  · rfl
  · exact s.skipIf_setST b _

/-- A meaning that checks `p` and ends in one of two states, with the sound timer written before or after. -/
theorem ite_setST {p : Prop} [Decidable p] {u v u' v' t : State} {b : Byte}
    (h : (if p then .next u else .next v : Result) = .next t) (hu : u' = u.setST b) (hv : v' = v.setST b) :
    (if p then .next u' else .next v' : Result) = .next (t.setST b) := by
  split at h <;> cases h
  · next hp => rw [if_pos hp, hu]
  · next hp => rw [if_neg hp, hv]

/-- An instruction other than FX18 commutes with a write to the sound timer. -/
theorem exec_setST {i : Instr} (hi : ∀ x, i ≠ .ldSTVx x) {s t : State} (b : Byte) (h : exec i s = .next t) :
    exec i (s.setST b) = .next (t.setST b) := by
  cases i with
  | ret | call _ | addI _ | ldB _ | ldMemVx _ => exact ite_setST h rfl rfl
  | ldVxMem x =>
    refine ite_setST h ?_ rfl
    rw [State.loadRegs_setST]; rfl
  | drw x y n =>
    refine ite_setST h rfl ?_
    rw [State.drawSprite_setST]; rfl
  | skp x => rw [exec_skp] at h ⊢; cases h; exact congrArg _ (s.keySkip_setST b _ _ _)
  | sknp x => rw [exec_sknp] at h ⊢; cases h; exact congrArg _ (s.keySkip_setST b _ _ _)
  | seImm _ _ | sneImm _ _ | seReg _ _ | sneReg _ _ => cases h; exact congrArg _ (s.skipIf_setST b _)
  | ldVxK x =>
    cases hw : s.waiting with
    | false => rw [exec_ldVxK_start x hw] at h; cases h; exact exec_ldVxK_start (s := s.setST b) x hw
    | true =>
      cases hr : s.received with
      | false => rw [exec_ldVxK_wait x hw hr] at h; cases h; exact exec_ldVxK_wait (s := s.setST b) x hw hr
      | true => rw [exec_ldVxK_end x hw hr] at h; cases h; exact exec_ldVxK_end (s := s.setST b) x hw hr
  | ldSTVx x => exact absurd rfl (hi x)
  | _ => cases h; rfl

/-- A step commutes with a write to the sound timer, or (FX18) overwrites it. -/
theorem step_setST {s t : State} (b : Byte) (h : step s = .next t) :
    step (s.setST b) = .next (t.setST b) ∨ step (s.setST b) = .next t := by
  by_cases hsafe : s.fault = none
  · by_cases hf : s.fetchable = true
    · cases hw : decode s.fetchedWord with
      | unknown w =>
        rw [step_of_unknown hsafe hf hw] at h; cases h
        exact .inl (step_of_unknown (s := s.setST b) hsafe hf hw)
      | instr i =>
        rw [step_of_instr hsafe hf hw] at h
        rw [step_of_instr (s := s.setST b) hsafe hf hw]
        by_cases hi : ∃ x, i = .ldSTVx x
        · obtain ⟨x, rfl⟩ := hi
          exact .inr h
        · exact .inl (exec_setST (fun x hx => hi ⟨x, hx⟩) b h)
    · rw [step_of_not_fetchable hsafe hf] at h; cases h
      exact .inl (step_of_not_fetchable (s := s.setST b) hsafe hf)
  · rw [step_of_fault hsafe] at h; cases h
    exact .inl (step_of_fault (s := s.setST b) hsafe)

/-- Settles O50: a step of the state with another ST is the step of the state, but for what ST holds. -/
theorem soundTimerIsNeverRead : Obligations.SoundTimerIsNeverRead := by
  intro s t b h
  rcases step_setST b h with hstep | hstep
  · exact ⟨t.setST b, hstep, rfl, .inl rfl⟩
  · exact ⟨t, hstep, rfl, .inr rfl⟩

end Sys2Proof.Machine
end

section
/-! PROOFS. Control transfer: the relative jump, call and return, the skips on an immediate (41_control_flow.md
sections 2 and 3). -/

namespace Sys2Proof.Machine

/-! The frames of the stack's operations. -/

/-- A frame may name more parts as written than the operation writes. -/
theorem FrameOutside.mono {A B : Part → Prop} {s t : State} (h : FrameOutside A s t) (hAB : ∀ p, A p → B p) :
    FrameOutside B s t :=
  fun p hp => h p fun ha => hp (hAB p ha)

/-- `push` writes the stack pointer and the entry it points at. -/
theorem State.frameOutside_push (s : State) (hs : SparseSorted s.stack) (a : Word) :
    FrameOutside (fun p => p = .sp ∨ p = .stack s.sp) s (s.push a) := by
  intro p hp
  cases p with
  | sp => exact absurd (.inl rfl) hp
  | stack j =>
    have hj : j ≠ s.sp := fun h => hp (.inr (congrArg Part.stack h))
    exact ((s.stackAt_push hs a j).trans (if_neg hj)).symm
  | _ => rfl

/-- `dropTop` writes the stack pointer alone. -/
theorem State.frameOutside_dropTop (s : State) : FrameOutside (fun p => p = .sp) s s.dropTop := by
  intro p hp
  cases p with
  | sp => exact absurd rfl hp
  | _ => rfl

/-! The instructions. -/

theorem exec_jpV0 (nnn : Addr12) (s : State) : exec (.jpV0 nnn) s = .next (s.jump (s.v0Target nnn)) := rfl

theorem exec_seImm (x : Nibble) (nn : Byte) (s : State) :
    exec (.seImm x nn) s = .next (s.skipIf (decide (s.getV x = nn))) := rfl

theorem exec_sneImm (x : Nibble) (nn : Byte) (s : State) :
    exec (.sneImm x nn) s = .next (s.skipIf (decide (s.getV x ≠ nn))) := rfl

/-- NNN + V0 fits 16 bits, so the sum is exact (41_control_flow.md R108). -/
theorem State.toNat_v0Target (s : State) (nnn : Addr12) :
    (s.v0Target nnn).toNat = nnn.toNat + (s.getV 0#4).toNat := by
  rw [State.v0Target, BitVec.toNat_add, BitVec.toNat_setWidth, BitVec.toNat_setWidth]
  omega

/-- Settles O17: BNNN is a `jump` to the exact sum. -/
theorem relativeJumpAddsV0 : Obligations.RelativeJumpAddsV0 :=
  fun nnn s => ⟨s.jump (s.v0Target nnn), exec_jpV0 nnn s, s.toNat_v0Target nnn, s.frameOutside_jump _⟩

/-- Settles O18: below its depth the stack takes the return address, then CALL jumps. -/
theorem callPushesTheReturnAddress : Obligations.CallPushesTheReturnAddress := by
  intro nnn s hinv hfree
  obtain ⟨-, ⟨hsorted, -⟩, -⟩ := hinv
  refine ⟨(s.push (s.pc + 2#16)).jump (absTarget nnn), ?_, ?_, rfl, toNat_absTarget nnn, ?_⟩
  · rw [exec_call, if_neg hfree]
  · rw [State.jump_stackAt, s.stackAt_push hsorted, if_pos rfl]
  · refine ((s.frameOutside_push hsorted _).trans ((s.push _).frameOutside_jump _)).mono fun p hp => ?_
    rw [or_comm] at hp
    exact hp

/-- Settles O19: RET with an entry in use drops it and jumps to its value. -/
theorem returnPopsTheTopEntry : Obligations.ReturnPopsTheTopEntry := by
  intro s hused
  refine ⟨s.dropTop.jump (s.stackAt (s.sp - 1)), ?_, rfl, rfl, ?_⟩
  · rw [exec_ret, if_neg hused]
  · exact (s.frameOutside_dropTop.trans (s.dropTop.frameOutside_jump _)).mono fun _ hp => hp.symm

/-- Settles O20: the return after a call pops what the call pushed and takes the stack pointer back. -/
theorem returnUndoesCall : Obligations.ReturnUndoesCall := by
  intro nnn s hinv hfree
  obtain ⟨t, hcall, hentry, hsp, -, hst⟩ := callPushesTheReturnAddress nnn s hinv hfree
  have hused : t.sp ≠ 0 := by rw [hsp]; exact Nat.succ_ne_zero _
  obtain ⟨u, hret, hpc, husp, htu⟩ := returnPopsTheTopEntry t hused
  rw [hsp, Nat.add_sub_cancel] at hpc husp
  refine ⟨t, u, hcall, hret, hpc.trans hentry, fun p hp => ?_⟩
  by_cases hpsp : p = .sp
  · subst hpsp; exact husp.symm
  · refine hst.trans htu p ?_
    rintro ((h | h | h) | h | h)
    · exact hp (.inl h)
    · exact hpsp h
    · exact hp (.inr h)
    · exact hp (.inl h)
    · exact hpsp h

/-- Settles O21: both forms are conditional skips, on a condition and on its negation. -/
theorem skipsOnImmediate : Obligations.SkipsOnImmediate := by
  intro x nn s
  constructor
  · exact exists_next_of_exec_eq_skipIf (exec_seImm x nn s) (by simp only [decide_eq_true_eq])
  · exact exists_next_of_exec_eq_skipIf (exec_sneImm x nn s) (by simp only [decide_eq_true_eq, ne_eq, ite_not])

end Sys2Proof.Machine
end

section
/-! PROOFS. The ALU: one register written, and for the flag forms VF after it (42_alu.md sections 1, 3 and 4). -/

namespace Sys2Proof.Machine

/-! The logic forms write one register. -/

theorem exec_orReg (x y : Nibble) (s : State) :
    exec (.orReg x y) s = .next (s.setV x (s.getV x ||| s.getV y)).advance := rfl

theorem exec_andReg (x y : Nibble) (s : State) :
    exec (.andReg x y) s = .next (s.setV x (s.getV x &&& s.getV y)).advance := rfl

theorem exec_xorReg (x y : Nibble) (s : State) :
    exec (.xorReg x y) s = .next (s.setV x (s.getV x ^^^ s.getV y)).advance := rfl

/-- Settles O25: each form writes V[X] alone, with the operation that works bit by bit. -/
theorem logicWorksBitwise : Obligations.LogicWorksBitwise := by
  intro x y s
  refine ⟨?_, ?_, ?_⟩
  · obtain ⟨t, hexec, hv, hrest⟩ := exists_next_of_exec_eq_setV_advance (exec_orReg x y s)
    exact ⟨t, hexec, fun k => by rw [hv, BitVec.getLsbD_or], hrest⟩
  · obtain ⟨t, hexec, hv, hrest⟩ := exists_next_of_exec_eq_setV_advance (exec_andReg x y s)
    exact ⟨t, hexec, fun k => by rw [hv, BitVec.getLsbD_and], hrest⟩
  · obtain ⟨t, hexec, hv, hrest⟩ := exists_next_of_exec_eq_setV_advance (exec_xorReg x y s)
    exact ⟨t, hexec, fun k => by rw [hv, BitVec.getLsbD_xor], hrest⟩

/-! The flag forms write a register and then VF. -/

theorem exec_addReg (x y : Nibble) (s : State) : exec (.addReg x y) s =
    .next (s.setVFlag x (s.getV x + s.getV y) (addCarries (s.getV x) (s.getV y))).advance := rfl

theorem exec_sub (x y : Nibble) (s : State) : exec (.sub x y) s =
    .next (s.setVFlag x (s.getV x - s.getV y) (subWraps (s.getV x) (s.getV y))).advance := rfl

theorem exec_subn (x y : Nibble) (s : State) : exec (.subn x y) s =
    .next (s.setVFlag x (s.getV y - s.getV x) (subWraps (s.getV y) (s.getV x))).advance := rfl

theorem exec_shr (x y : Nibble) (s : State) : exec (.shr x y) s =
    .next (s.setVFlag x (s.getV x >>> 1) (shiftedOutRight (s.getV x))).advance := rfl

theorem exec_shl (x y : Nibble) (s : State) : exec (.shl x y) s =
    .next (s.setVFlag x (s.getV x <<< 1) (shiftedOutLeft (s.getV x))).advance := rfl

/-- `setFlag` writes VF alone. -/
theorem State.frameOutside_setFlag (s : State) (c : Bool) : FrameOutside (fun p => p = .v 0xF#4) s (s.setFlag c) :=
  s.frameOutside_setV flagReg (flagByte c)

/-- Every instruction that answers a register write, the flag write and then `advance` leaves the flag in VF, the byte
written in any other V[X], moves `pc` to the next word and changes nothing else (42_alu.md R120). -/
theorem exists_next_of_exec_eq_setVFlag_advance {i : Instr} {s : State} {x : Nibble} {b : Byte} {c : Bool}
    (hexec : exec i s = .next (s.setVFlag x b c).advance) :
    ∃ t, exec i s = .next t ∧ t.getV 0xF#4 = flagByte c ∧ (x ≠ 0xF#4 → t.getV x = b) ∧
      t.pc = s.pc + 2#16 ∧ FrameOutside (fun p => p = .v x ∨ p = .v 0xF#4 ∨ p = .pc) s t := by
  refine ⟨(s.setVFlag x b c).advance, hexec, ?_, fun hx => ?_, rfl, ?_⟩
  · rw [State.advance_getV, State.getV_setVFlag, if_pos (by rfl)]
  · rw [State.advance_getV, State.getV_setVFlag, if_neg (Ne.symm hx : flagReg ≠ x), if_pos rfl]
  · exact (s.frameOutside_setV x b).trans
      (((s.setV x b).frameOutside_setFlag c).trans ((s.setV x b).setFlag c).frameOutside_advance)

/-- `bool(c)` of a checked condition (00_scope.md R10). -/
theorem flagByte_decide (p : Prop) [Decidable p] : flagByte (decide p) = if p then 1#8 else 0#8 := by
  by_cases hp : p <;> simp [flagByte, hp]

theorem toNat_flagByte (c : Bool) : (flagByte c).toNat = c.toNat := by
  cases c <;> rfl

/-- Settles O26: the 8-bit sum, and the flag that says the sum exceeded 255. -/
theorem addSetsCarry : Obligations.AddSetsCarry := by
  intro x y s
  obtain ⟨t, hexec, hflag, hv, hrest⟩ := exists_next_of_exec_eq_setVFlag_advance (exec_addReg x y s)
  refine ⟨t, hexec, hflag.trans (flagByte_decide _), fun hx => ?_, hrest⟩
  rw [hv hx, BitVec.toNat_add]

/-- The 8-bit difference is the difference modulo 256. -/
theorem toNat_byte_sub (a b : Byte) : ((a - b).toNat : Int) = (a.toNat - b.toNat : Int) % 256 := by
  rw [BitVec.toNat_sub]
  omega

/-- Settles O27: both forms write an 8-bit difference and the flag that says it wrapped. -/
theorem subtractSetsWrap : Obligations.SubtractSetsWrap := by
  intro x y s
  constructor
  · obtain ⟨t, hexec, hflag, hv, hrest⟩ := exists_next_of_exec_eq_setVFlag_advance (exec_sub x y s)
    exact ⟨t, hexec, hflag.trans (flagByte_decide _), fun hx => hv hx ▸ toNat_byte_sub _ _, hrest⟩
  · obtain ⟨t, hexec, hflag, hv, hrest⟩ := exists_next_of_exec_eq_setVFlag_advance (exec_subn x y s)
    exact ⟨t, hexec, hflag.trans (flagByte_decide _), fun hx => hv hx ▸ toNat_byte_sub _ _, hrest⟩

/-- A check whether a bit is set, as a number, is the bit. -/
theorem toNat_decide_eq_one {n : Nat} (h : n < 2) : (decide (n = 1)).toNat = n := by
  obtain rfl | rfl : n = 0 ∨ n = 1 := by omega
  · rfl
  · rfl

/-- The bit a right shift by one loses is the remainder by 2. -/
theorem toNat_shiftedOutRight (a : Byte) : (shiftedOutRight a).toNat = a.toNat % 2 := by
  rw [shiftedOutRight, BitVec.getLsbD, Nat.testBit_zero, toNat_decide_eq_one (Nat.mod_lt _ Nat.two_pos)]

/-- The bit a left shift by one loses is the quotient by 128. -/
theorem toNat_shiftedOutLeft (a : Byte) : (shiftedOutLeft a).toNat = a.toNat / 128 := by
  have ha := a.isLt
  rw [shiftedOutLeft, BitVec.getLsbD, Nat.testBit_eq_decide_div_mod_eq, toNat_decide_eq_one (Nat.mod_lt _ Nat.two_pos)]
  omega

/-- Settles O28: both forms write the shifted byte and the bit shifted out, whatever V[Y] is. -/
theorem shiftsSetTheBitShiftedOut : Obligations.ShiftsSetTheBitShiftedOut := by
  intro x y s
  constructor
  · obtain ⟨t, hexec, hflag, hv, hrest⟩ := exists_next_of_exec_eq_setVFlag_advance (exec_shr x y s)
    refine ⟨t, hexec, ?_, fun hx => ?_, hrest⟩
    · rw [hflag, toNat_flagByte, toNat_shiftedOutRight]
    · rw [hv hx, BitVec.toNat_ushiftRight, Nat.shiftRight_one]
  · obtain ⟨t, hexec, hflag, hv, hrest⟩ := exists_next_of_exec_eq_setVFlag_advance (exec_shl x y s)
    refine ⟨t, hexec, ?_, fun hx => ?_, hrest⟩
    · rw [hflag, toNat_flagByte, toNat_shiftedOutLeft]
    · rw [hv hx, BitVec.toNat_shiftLeft, Nat.shiftLeft_eq, Nat.pow_one]

/-! The random load. -/

/-- `drawn` writes the counter of free values alone. -/
theorem State.frameOutside_drawn (s : State) : FrameOutside (fun p => p = .draws) s s.drawn := by
  intro p hp
  cases p with
  | draws => exact absurd rfl hp
  | _ => rfl

theorem exec_rnd (x : Nibble) (nn : Byte) (s : State) :
    exec (.rnd x nn) s = .next (s.drawn.setV x (s.nextRandom &&& nn)).advance := rfl

/-- Settles O29: CXNN writes the free byte masked by NN, so a bit outside NN is not set. -/
theorem randomLoadIsMasked : Obligations.RandomLoadIsMasked := by
  intro x nn s
  have hv : (s.drawn.setV x (s.nextRandom &&& nn)).advance.getV x = Config.randomByte s.draws &&& nn :=
    State.getV_setV_self _ _ _
  refine ⟨_, exec_rnd x nn s, hv, fun k hk => ?_, rfl, rfl, ?_⟩
  · rw [hv, BitVec.getLsbD_and, hk, Bool.and_false]
  · refine (s.frameOutside_drawn.trans ((s.drawn.frameOutside_setV x _).trans (State.frameOutside_advance _))).mono
      fun p hp => ?_
    rwa [or_left_comm] at hp

end Sys2Proof.Machine
end

section
/-! PROOFS. The index register and the transfers between registers and memory (43_index_memory.md sections 2 and 3,
20_memory.md sections 3 and 4). -/

namespace Sys2Proof.Machine

/-! The index register. -/

/-- Settles O32: up to 0xFFFF the sum fits `I` and VF says whether it exceeds 0xFFF; past it FX1E only faults. -/
theorem addToIndex : Obligations.AddToIndex := by
  intro x s
  constructor
  · intro hfits
    have hsum : (BitVec.ofNat 16 (s.indexSum x)).toNat = s.indexSum x :=
      (BitVec.toNat_ofNat _ _).trans (Nat.mod_eq_of_lt (Nat.lt_succ_of_le hfits))
    refine ⟨_, (exec_addI x s).trans (if_neg (Nat.not_lt.2 hfits)), hsum, ?_, rfl, ?_⟩
    · rw [State.advance_getV, State.getV_setFlag, if_pos (by rfl)]
      exact flagByte_decide _
    · exact (s.frameOutside_setI _).trans (((s.setI _).frameOutside_setFlag _).trans (State.frameOutside_advance _))
  · intro hpast
    exact (exec_addI x s).trans (if_pos hpast)

theorem exec_ldF (x : Nibble) (s : State) : exec (.ldF x) s = .next (s.setI (glyphAddr (s.getV x))).advance := rfl

/-- Five times a byte fits 16 bits. -/
theorem toNat_glyphAddr (b : Byte) : (glyphAddr b).toNat = 5 * b.toNat := by
  have hb := b.isLt
  rw [glyphAddr, BitVec.toNat_mul, BitVec.toNat_setWidth, BitVec.toNat_ofNat]
  omega

/-- Settles O33: FX29 writes the glyph's address to `I` and then advances. -/
theorem glyphAddress : Obligations.GlyphAddress := by
  intro x s
  exact ⟨_, exec_ldF x s, toNat_glyphAddr _, rfl, (s.frameOutside_setI _).trans (State.frameOutside_advance _)⟩

/-! The two writes of the transfers. -/

/-- `writeBytes` inside the memory writes the bytes of its range alone. -/
theorem State.frameOutside_writeBytes (s : State) (hs : SparseSorted s.mem) {a : Nat} {bs : List Byte}
    (ha : a + bs.length ≤ Config.memSize) :
    FrameOutside (fun p => ∃ b, p = .byte b ∧ a ≤ b ∧ b < a + bs.length) s (s.writeBytes a bs) := by
  intro p hp
  cases p with
  | byte b =>
    have hb : ¬(a ≤ b ∧ b < a + bs.length) := fun h => hp ⟨b, rfl, h⟩
    exact ((s.readByte_writeBytes hs a bs ha b).trans (if_neg hb)).symm
  | _ => rfl

/-- The byte written at place `k` of a list. -/
theorem State.readByte_writeBytes_add (s : State) (hs : SparseSorted s.mem) {a : Nat} {bs : List Byte}
    (ha : a + bs.length ≤ Config.memSize) {k : Nat} (hk : k < bs.length) :
    (s.writeBytes a bs).readByte (a + k) = bs.getD k 0x00#8 := by
  rw [s.readByte_writeBytes hs a bs ha, if_pos ⟨Nat.le_add_right a k, Nat.add_lt_add_left hk a⟩,
    Nat.add_sub_cancel_left]

/-- `loadRegs` writes the registers V0 on alone. -/
theorem State.frameOutside_loadRegs (s : State) {n : Nat} (hn : n ≤ 16) :
    FrameOutside (fun p => ∃ k : Nibble, p = .v k ∧ k.toNat < n) s (s.loadRegs n) := by
  intro p hp
  cases p with
  | v k =>
    have hk : ¬ k.toNat < n := fun h => hp ⟨k, rfl, h⟩
    exact ((s.getV_loadRegs n hn k).trans (if_neg hk)).symm
  | _ => rw [State.loadRegs_eq]; rfl

/-! What FX33, FX55 and FX65 do inside the memory. -/

@[simp] theorem State.length_regList (s : State) (n : Nat) : (s.regList n).length = n := by
  simp [State.regList]

theorem State.getD_regList (s : State) {n k : Nat} (hk : k < n) :
    (s.regList n).getD k 0x00#8 = s.getV (BitVec.ofNat 4 k) := by
  simp [State.regList, List.getD_eq_getElem?_getD, hk]

@[simp] theorem length_decimalDigits (b : Byte) : (decimalDigits b).length = 3 := rfl

theorem exec_ldB_of_lt {x : Nibble} {s : State} (h : s.i.toNat + 2 < 0x1000) :
    exec (.ldB x) s = .next (s.writeBytes s.i.toNat (decimalDigits (s.getV x))).advance :=
  (exec_ldB x s).trans (if_pos ((s.reaches_iff 2).2 h))

theorem exec_ldMemVx_of_lt {x : Nibble} {s : State} (h : s.i.toNat + x.toNat < 0x1000) :
    exec (.ldMemVx x) s = .next (s.writeBytes s.i.toNat (s.regList (x.toNat + 1))).advance :=
  (exec_ldMemVx x s).trans (if_pos ((s.reaches_iff _).2 h))

theorem exec_ldVxMem_of_lt {x : Nibble} {s : State} (h : s.i.toNat + x.toNat < 0x1000) :
    exec (.ldVxMem x) s = .next (s.loadRegs (x.toNat + 1)).advance :=
  (exec_ldVxMem x s).trans (if_pos ((s.reaches_iff _).2 h))

/-- The store's range ends inside the memory. -/
theorem add_length_le_memSize {a n : Nat} {bs : List Byte} (hlen : bs.length = n + 1) (h : a + n < 0x1000) :
    a + bs.length ≤ Config.memSize := by
  rw [hlen]
  exact h

/-- The decimal digit of place `k`, hundreds first (43_index_memory.md R143). -/
theorem toNat_getD_decimalDigits (b : Byte) {k : Nat} (hk : k < 3) :
    ((decimalDigits b).getD k 0x00#8).toNat = b.toNat / 10 ^ (2 - k) % 10 := by
  have hb := b.isLt
  obtain rfl | rfl | rfl : k = 0 ∨ k = 1 ∨ k = 2 := by omega
  all_goals simp only [decimalDigits, List.getD_cons_zero, List.getD_cons_succ, BitVec.toNat_ofNat]; omega

/-- Settles O34: the bytes FX33 leaves at `I` on are the decimal digits, which make up V[X]. -/
theorem decimalDigitsAreStored : Obligations.DecimalDigitsAreStored := by
  intro x s ⟨hsorted, _⟩ hin
  have hv := (s.getV x).isLt
  have hrange : s.i.toNat + (decimalDigits (s.getV x)).length ≤ Config.memSize := add_length_le_memSize rfl hin
  have hdigit {k : Nat} (hk : k < 3) :
      ((s.writeBytes s.i.toNat (decimalDigits (s.getV x))).advance.readByte (s.i.toNat + k)).toNat =
        (s.getV x).toNat / 10 ^ (2 - k) % 10 := by
    rw [State.advance_readByte, s.readByte_writeBytes_add hsorted hrange hk, toNat_getD_decimalDigits _ hk]
  have h0 := hdigit (k := 0) (by decide)
  have h1 := hdigit (k := 1) (by decide)
  have h2 := hdigit (k := 2) (by decide)
  rw [Nat.add_zero] at h0
  refine ⟨_, exec_ldB_of_lt hin, ?_, ?_, ?_, ?_, rfl, ?_⟩
  · rw [h0, h1, h2]; omega
  · rw [h0]; exact Nat.mod_lt _ (by decide)
  · rw [h1]; exact Nat.mod_lt _ (by decide)
  · rw [h2]; exact Nat.mod_lt _ (by decide)
  · refine ((s.frameOutside_writeBytes hsorted hrange).trans (State.frameOutside_advance _)).mono ?_
    rintro p (⟨b, rfl, hb, hb'⟩ | rfl)
    · exact .inr ⟨b, rfl, hb, Nat.le_of_lt_succ hb'⟩
    · exact .inl rfl

/-- Settles O35: the list FX55 writes at `I` is read back register by register. -/
theorem registersAreStored : Obligations.RegistersAreStored := by
  intro x s ⟨hsorted, _⟩ hin
  have hrange : s.i.toNat + (s.regList (x.toNat + 1)).length ≤ Config.memSize :=
    add_length_le_memSize (s.length_regList _) hin
  refine ⟨_, exec_ldMemVx_of_lt hin, fun k hk => ?_, rfl, ?_⟩
  · have hk' := Nat.lt_succ_of_le hk
    rw [State.advance_readByte, s.readByte_writeBytes_add hsorted hrange (by rwa [State.length_regList]),
      s.getD_regList hk', BitVec.ofNat_toNat, BitVec.setWidth_eq]
  · refine ((s.frameOutside_writeBytes hsorted hrange).trans (State.frameOutside_advance _)).mono ?_
    rintro p (⟨b, rfl, hb, hb'⟩ | rfl)
    · rw [State.length_regList] at hb'
      exact .inr ⟨b, rfl, hb, Nat.le_of_lt_succ hb'⟩
    · exact .inl rfl

/-- Settles O36: FX65 loads V0 to VX and then advances. -/
theorem registersAreLoaded : Obligations.RegistersAreLoaded := by
  intro x s hin
  have hn : x.toNat + 1 ≤ 16 := x.isLt
  refine ⟨_, exec_ldVxMem_of_lt hin, fun k hk => ?_, ?_, ?_⟩
  · rw [State.advance_getV, s.getV_loadRegs _ hn, if_pos (Nat.lt_succ_of_le hk)]
    rfl
  · rw [State.advance_pc, State.loadRegs_pc]
  · refine ((s.frameOutside_loadRegs hn).trans (State.frameOutside_advance _)).mono ?_
    rintro p (⟨k, rfl, hk⟩ | rfl)
    · exact .inr ⟨k, rfl, Nat.le_of_lt_succ hk⟩
    · exact .inl rfl

/-- Settles O37: each check fails, so each form raises its fault and does nothing else. -/
theorem stackAndMemoryFaultsWriteOnlyTheRecord : Obligations.StackAndMemoryFaultsWriteOnlyTheRecord := by
  intro x y n s
  have hpast {k : Nat} (h : 0x1000 ≤ s.i.toNat + k) : ¬ s.reaches k = true := by
    rw [State.reaches_iff]; exact Nat.not_lt.2 h
  refine ⟨fun nnn hfull => (exec_call nnn s).trans (if_pos hfull), fun hempty => (exec_ret s).trans (if_pos hempty),
    fun h => (exec_ldB x s).trans (if_neg (hpast h)), fun h => (exec_ldMemVx x s).trans (if_neg (hpast h)),
    fun h => (exec_ldVxMem x s).trans (if_neg (hpast h)), fun hn h => (exec_drw x y n s).trans (if_pos ?_)⟩
  exact (s.spriteOutside_iff _).2 ⟨hn, h⟩

/-- Settles O38: FX65 reads the bytes FX55 left, since it finds the same memory and the same `I`. -/
theorem loadAfterStoreRestoresRegisters : Obligations.LoadAfterStoreRestoresRegisters := by
  intro x s t t' hwf hin hstore hmem hi
  obtain ⟨t₁, hstore₁, hstored, -, hframe⟩ := registersAreStored x s hwf hin
  obtain rfl : t = t₁ := by rw [hstore] at hstore₁; cases hstore₁; rfl
  have hi' : t'.i = s.i := hi.trans (hframe .i (by rintro (h | ⟨a, h, -⟩) <;> cases h)).symm
  obtain ⟨u, hload, hloaded, -⟩ := registersAreLoaded x t' (hi' ▸ hin)
  refine ⟨u, hload, fun k hk => ?_⟩
  rw [hloaded k hk, hi', State.readByte, hmem]
  exact hstored k hk

/-! A store and the next fetch. -/

/-- The byte of memory after FX55: a register inside the range, the old byte outside. -/
theorem State.readByte_storedRegs (s : State) (hs : SparseSorted s.mem) {x : Nibble}
    (hin : s.i.toNat + x.toNat < 0x1000) (a : Nat) :
    (s.writeBytes s.i.toNat (s.regList (x.toNat + 1))).readByte a =
      if s.i.toNat ≤ a ∧ a ≤ s.i.toNat + x.toNat then s.getV (BitVec.ofNat 4 (a - s.i.toNat)) else s.readByte a := by
  rw [s.readByte_writeBytes hs _ _ (add_length_le_memSize (s.length_regList _) hin), State.length_regList]
  by_cases ha : s.i.toNat ≤ a ∧ a ≤ s.i.toNat + x.toNat
  · rw [if_pos ha, if_pos (by omega), s.getD_regList (by omega)]
  · rw [if_neg ha, if_neg (by omega)]

/-- The byte of memory after FX33: a digit inside the range, the old byte outside. -/
theorem State.readByte_storedDigits (s : State) (hs : SparseSorted s.mem) (b : Byte) (hin : s.i.toNat + 2 < 0x1000)
    (a : Nat) : (s.writeBytes s.i.toNat (decimalDigits b)).readByte a =
      if a = s.i.toNat then BitVec.ofNat 8 (b.toNat / 100)
      else if a = s.i.toNat + 1 then BitVec.ofNat 8 (b.toNat / 10 % 10)
      else if a = s.i.toNat + 2 then BitVec.ofNat 8 (b.toNat % 10)
      else s.readByte a := by
  have hrange : s.i.toNat + (decimalDigits b).length ≤ Config.memSize := add_length_le_memSize rfl hin
  have hplace (k : Nat) (hk : k < 3) := s.readByte_writeBytes_add hs hrange (k := k) hk
  split
  · next ha => subst ha; exact hplace 0 (by decide)
  · split
    · next ha => subst ha; exact hplace 1 (by decide)
    · split
      · next ha => subst ha; exact hplace 2 (by decide)
      · rw [s.readByte_writeBytes hs _ _ hrange, length_decimalDigits, if_neg (by omega)]

/-- Settles O39: the fetched word is two reads of the memory the store left. -/
theorem storesAreSeenByTheNextFetch : Obligations.StoresAreSeenByTheNextFetch := by
  intro x s t ⟨hsorted, _⟩
  constructor
  · intro hin h
    rw [exec_ldMemVx_of_lt hin] at h
    cases h
    exact congrArg₂ (· ++ ·) (s.readByte_storedRegs hsorted hin _) (s.readByte_storedRegs hsorted hin _)
  · intro hin h
    rw [exec_ldB_of_lt hin] at h
    cases h
    exact congrArg₂ (· ++ ·) (s.readByte_storedDigits hsorted _ hin _) (s.readByte_storedDigits hsorted _ hin _)

end Sys2Proof.Machine
end

section
/-! PROOFS. The display: clearing, drawing, the dirty flags (44_display.md sections 1 and 2). -/

namespace Sys2Proof.Machine

/-! Frames. -/

/-- `markDirty` writes the frame buffer's flag alone. -/
theorem State.frameOutside_markDirty (s : State) : FrameOutside (fun p => p = .fbDirty) s s.markDirty := by
  intro p hp
  cases p with
  | fbDirty => exact absurd rfl hp
  | _ => rfl

/-- A draw writes pixels, VF, the frame buffer's flag and `pc`. -/
theorem State.frameOutside_drawnOver (s : State) (c : Canvas) :
    FrameOutside (fun p => p = .pc ∨ p = .v 0xF#4 ∨ p = .fbDirty ∨ ∃ px py, p = .pixel px py) s (s.drawnOver c) := by
  refine ((s.frameOutside_setFb c.grid).trans ((State.frameOutside_setFlag _ c.hit).trans
    ((State.frameOutside_markDirty _).trans (State.frameOutside_advance _)))).mono ?_
  rintro p (h | h | h | h)
  · exact .inr (.inr (.inr h))
  · exact .inr (.inl h)
  · exact .inr (.inr (.inl h))
  · exact .inl h

/-! Clearing. -/

theorem exec_cls (s : State) : exec .cls s = .next (s.setFb []).markDirty.advance := rfl

/-- Settles O40: the empty grid reads 0x00 everywhere. -/
theorem clearScreen : Obligations.ClearScreen := by
  intro s
  refine ⟨_, exec_cls s, fun _ _ => rfl, rfl, rfl, ?_⟩
  refine ((s.frameOutside_setFb []).trans
    ((State.frameOutside_markDirty _).trans (State.frameOutside_advance _))).mono ?_
  rintro p (h | h | h)
  · exact .inr (.inr h)
  · exact .inr (.inl h)
  · exact .inl h

/-! Drawing. -/

/-- A sprite that lies in the memory, or has no rows, is drawn (44_display.md R161). -/
theorem exec_drw_of_inside {x y n : Nibble} {s : State} (h : n.toNat = 0 ∨ s.i.toNat + n.toNat - 1 < 0x1000) :
    exec (.drw x y n) s = .next (s.drawnOver (s.drawSprite (s.getV x) (s.getV y) n.toNat)) := by
  refine (exec_drw x y n s).trans (if_neg ?_)
  rw [State.spriteOutside_iff]
  omega

/-- The pixels a sprite toggles are those it covers (44_display.md R162 to R164). -/
theorem State.drawSprite_draws_covers (s : State) (hinv : s.Inv) (x0 y0 : Byte) (n : Nibble) :
    Draws s.params (s.spriteCovers x0 y0 n.toNat) { grid := s.fb, hit := false } (s.drawSprite x0 y0 n.toNat) := by
  obtain ⟨-, -, hfb, -⟩ := hinv
  exact s.drawSprite_draws x0 y0 n.toNat (Nat.le_of_lt n.isLt) hfb

/-- Settles O41: the pixels after the draw are those of its canvas. -/
theorem drawTogglesTheSprite : Obligations.DrawTogglesTheSprite := by
  intro x y n s hinv hinside
  have hdraws := s.drawSprite_draws_covers hinv (s.getV x) (s.getV y) n
  exact ⟨_, exec_drw_of_inside hinside, fun px py hx hy => ⟨hdraws.on px py hx hy, hdraws.off px py hx hy⟩, rfl, rfl,
    s.frameOutside_drawnOver _⟩

/-- Settles O42: the canvas is hit exactly when a covered pixel collides, and VF is that flag. -/
theorem drawFlagIsTheCollision : Obligations.DrawFlagIsTheCollision := by
  intro x y n s hinv hrule hinside
  have hflag : (s.drawnOver (s.drawSprite (s.getV x) (s.getV y) n.toNat)).getV 0xF#4 =
      flagByte (s.drawSprite (s.getV x) (s.getV y) n.toNat).hit := State.getV_setV_self _ _ _
  have hhit := (s.drawSprite_draws_covers hinv (s.getV x) (s.getV y) n).hit
  simp only [Bool.false_eq_true, false_or, hrule, pixelCollides, decide_eq_true_eq] at hhit
  refine ⟨_, exec_drw_of_inside hinside, fun hcol => ?_, fun hfree => ?_⟩
  · rw [hflag, hhit.2 hcol]; rfl
  · rw [hflag, Bool.eq_false_iff.2 (mt hhit.1 hfree)]; rfl

/-- What a sprite covers depends on `I` and the memory alone. -/
theorem State.spriteCovers_congr {s t : State} (hi : t.i = s.i) (hmem : ∀ a, t.readByte a = s.readByte a)
    (x0 y0 : Byte) (n px py : Nat) : t.spriteCovers x0 y0 n px py ↔ s.spriteCovers x0 y0 n px py := by
  simp only [State.spriteCovers, hi, hmem]

/-- Settles O43: the first draw keeps the coordinates, `I` and the memory, so the second covers the same pixels and
toggles them back. -/
theorem drawingTwiceRestoresTheFrame : Obligations.DrawingTwiceRestoresTheFrame := by
  intro x y n s hinv hx hy hinside
  obtain ⟨t, ht, htoggled, -, -, hframe⟩ := drawTogglesTheSprite x y n s hinv hinside
  have hvx : t.getV x = s.getV x := (hframe (.v x) (by simp [hx])).symm
  have hvy : t.getV y = s.getV y := (hframe (.v y) (by simp [hy])).symm
  have hi : t.i = s.i := (hframe .i (by simp)).symm
  have hp : t.params = s.params := (hframe .params (by simp)).symm
  have hmem (a : Nat) : t.readByte a = s.readByte a := (hframe (.byte a) (by simp)).symm
  obtain ⟨u, hu, hback, -⟩ := drawTogglesTheSprite x y n t ((ran_of_exec ht).inv hinv) (hi ▸ hinside)
  refine ⟨t, u, ht, hu, fun px py hpx hpy => ?_⟩
  obtain ⟨hon, hoff⟩ := htoggled px py hpx hpy
  obtain ⟨hon', hoff'⟩ := hback px py (hp ▸ hpx) (hp ▸ hpy)
  rw [hvx, hvy, State.spriteCovers_congr hi hmem] at hon' hoff'
  by_cases hcov : s.spriteCovers (s.getV x) (s.getV y) n.toNat px py
  · rw [hon' hcov, hon hcov, BitVec.xor_assoc, BitVec.xor_self, BitVec.xor_zero]
  · rw [hoff' hcov, hoff hcov]

/-! The dirty flags. -/

theorem State.fbMarkDirty_of_safe {s : State} (h : s.fault = none) : s.fbMarkDirty = s.markDirty :=
  s.unlessFaulted_of_safe _ h

theorem State.fbConsumeDirty_of_safe {s : State} (h : s.fault = none) :
    s.fbConsumeDirty = { s with fbDirty := false } :=
  s.unlessFaulted_of_safe _ h

theorem State.outConsumeDirty_of_safe {s : State} (h : s.fault = none) :
    s.outConsumeDirty = { s with outDirty := false } :=
  s.unlessFaulted_of_safe _ h

/-- Settles O52: on a live block each operation writes its flag alone, and a consume hands back the flag it clears. -/
theorem dirtyIsHandedOffOnce : Obligations.DirtyIsHandedOffOnce := by
  intro s hsafe
  rw [State.fbMarkDirty_of_safe hsafe, State.fbMarkDirty_of_safe (s := s.markDirty) hsafe,
    State.fbConsumeDirty_of_safe hsafe, State.outConsumeDirty_of_safe hsafe]
  refine ⟨rfl, rfl, rfl, rfl, rfl, rfl, s.frameOutside_markDirty, ?_, ?_⟩
  · intro p hp
    cases p with
    | fbDirty => exact absurd rfl hp
    | _ => rfl
  · intro p hp
    cases p with
    | outDirty => exact absurd rfl hp
    | _ => rfl

end Sys2Proof.Machine
end

section
/-! PROOFS. The filter: what one pass writes, cell by cell (44_display.md section 3). -/

namespace Sys2Proof.Machine

/-- A pass on a live block writes the output and marks it dirty (44_display.md R181). -/
theorem State.filterPass_of_safe {s : State} (h : s.fault = none) :
    s.filterPass = { s with out := s.filterOutput, outDirty := true } :=
  s.unlessFaulted_of_safe _ h

theorem State.outDirty_filterPass {s : State} (h : s.fault = none) : s.filterPass.outDirty = true := by
  rw [State.filterPass_of_safe h]

theorem State.frameOutside_filterPass {s : State} (h : s.fault = none) :
    FrameOutside (fun p => p = .outDirty ∨ ∃ px py, p = .outPixel px py) s s.filterPass := by
  rw [State.filterPass_of_safe h]
  intro p hp
  cases p with
  | outDirty => exact absurd (.inl rfl) hp
  | outPixel px py => exact absurd (.inr ⟨px, py, rfl⟩) hp
  | _ => rfl

theorem State.filterCell_of_off {s : State} (h : s.filterOn = false) (x y : Nat) :
    s.filterCell x y = s.pixel (x / 2) (y / 2) := by
  rw [State.filterCell, h]; rfl

theorem State.filterCell_of_on {s : State} (h : s.filterOn = true) (x y : Nat) :
    s.filterCell x y = blockCell (s.neighbours (x / 2) (y / 2)) (x % 2) (y % 2) := by
  rw [State.filterCell, h]; rfl

/-- Settles O53: without the filter a cell is the pixel of its block. -/
theorem filterOffBroadcasts : Obligations.FilterOffBroadcasts := by
  intro s hsafe _ hoff
  refine ⟨fun x y hx hy => ?_, State.outDirty_filterPass hsafe, State.frameOutside_filterPass hsafe⟩
  rw [s.outPixel_filterPass hsafe hx hy, State.filterCell_of_off hoff]

/-! The corner rule. -/

/-- With the filter on, the cell at column `dx` and row `dy` of the block of pixel (x, y). -/
theorem State.outPixel_filterPass_of_on {s : State} (hsafe : s.fault = none) (hratio : s.params.RatioOk)
    (hon : s.filterOn = true) {x y dx dy : Nat} (hx : x < s.params.fbW) (hy : y < s.params.fbH) (hdx : dx < 2)
    (hdy : dy < 2) : s.filterPass.outPixel (2 * x + dx) (2 * y + dy) = blockCell (s.neighbours x y) dx dy := by
  obtain ⟨hw, hh⟩ := hratio
  rw [s.outPixel_filterPass hsafe (by omega) (by omega), State.filterCell_of_on hon, Nat.mul_add_div Nat.two_pos,
    Nat.mul_add_div Nat.two_pos, Nat.div_eq_of_lt hdx, Nat.div_eq_of_lt hdy, Nat.mul_add_mod, Nat.mul_add_mod,
    Nat.mod_eq_of_lt hdx, Nat.mod_eq_of_lt hdy]
  rfl

/-- The neighbours inside the frame, with the edges where the statements put them (44_display.md R177). -/
theorem State.neighbours_eq (s : State) {x y : Nat} (hx : x < s.params.fbW) (hy : y < s.params.fbH) :
    s.neighbours x y =
      { centre := s.pixel x y
        top := if y = 0 then s.pixel x y else s.pixel x (y - 1)
        left := if x = 0 then s.pixel x y else s.pixel (x - 1) y
        right := if x + 1 = s.params.fbW then s.pixel x y else s.pixel (x + 1) y
        bottom := if y + 1 = s.params.fbH then s.pixel x y else s.pixel x (y + 1) } := by
  have hright : x < s.params.fbW - 1 ↔ ¬ x + 1 = s.params.fbW := by omega
  have hbottom : y < s.params.fbH - 1 ↔ ¬ y + 1 = s.params.fbH := by omega
  simp only [State.neighbours, Nat.pos_iff_ne_zero, ne_eq, ite_not, hright, hbottom]

/-- Corner b names the shared value by the right neighbour too. -/
theorem cornerB_eq_right (n : Neighbours) :
    cornerB n = if n.top = n.right ∧ n.top ≠ n.left ∧ n.right ≠ n.bottom then n.right else n.centre := by
  unfold cornerB
  split
  · next h => exact h.1
  · rfl

/-- Settles O54: each of the four cells of a block is its corner of the pixel's neighbours. -/
theorem filterOnAppliesTheCornerRule : Obligations.FilterOnAppliesTheCornerRule := by
  intro s x y hsafe hratio hon hx hy
  have hcell {dx dy : Nat} (hdx : dx < 2) (hdy : dy < 2) :=
    State.outPixel_filterPass_of_on hsafe hratio hon hx hy hdx hdy
  simp only [State.neighbours_eq s hx hy] at hcell
  refine ⟨?_, ?_, ?_, ?_, State.outDirty_filterPass hsafe, State.frameOutside_filterPass hsafe⟩
  · exact hcell (dx := 0) (dy := 0) (by decide) (by decide)
  · exact (hcell (dx := 1) (dy := 0) (by decide) (by decide)).trans (cornerB_eq_right _)
  · exact hcell (dx := 0) (dy := 1) (by decide) (by decide)
  · exact hcell (dx := 1) (dy := 1) (by decide) (by decide)

/-! A pass invents no value. -/

/-- What holds of the centre and of the four neighbours holds of every cell of the block. -/
theorem blockCell_of_all {P : Byte → Prop} {n : Neighbours} (hcentre : P n.centre) (htop : P n.top) (hleft : P n.left)
    (hright : P n.right) (dx dy : Nat) : P (blockCell n dx dy) := by
  have hite {p : Prop} [Decidable p] {b : Byte} (hb : P b) : P (if p then b else n.centre) := by
    split
    · exact hb
    · exact hcentre
  unfold blockCell
  split <;> split
  · exact hite hleft
  · exact hite htop
  · exact hite hleft
  · exact hite hright

/-- Every cell of a pass is a pixel of the frame. -/
theorem State.filterCell_eq_pixel (s : State) {x y : Nat} (hx : x / 2 < s.params.fbW) (hy : y / 2 < s.params.fbH) :
    ∃ px py, px < s.params.fbW ∧ py < s.params.fbH ∧ s.filterCell x y = s.pixel px py := by
  cases hf : s.filterOn with
  | false => exact ⟨x / 2, y / 2, hx, hy, State.filterCell_of_off hf x y⟩
  | true =>
    rw [State.filterCell_of_on hf, s.neighbours_eq hx hy]
    refine blockCell_of_all (P := fun b => ∃ px py, px < s.params.fbW ∧ py < s.params.fbH ∧ b = s.pixel px py)
      ⟨x / 2, y / 2, hx, hy, rfl⟩ ?_ ?_ ?_ _ _ <;> dsimp only <;> split
    · exact ⟨x / 2, y / 2, hx, hy, rfl⟩
    · exact ⟨x / 2, y / 2 - 1, hx, by omega, rfl⟩
    · exact ⟨x / 2, y / 2, hx, hy, rfl⟩
    · exact ⟨x / 2 - 1, y / 2, by omega, hy, rfl⟩
    · exact ⟨x / 2, y / 2, hx, hy, rfl⟩
    · exact ⟨x / 2 + 1, y / 2, by omega, hy, rfl⟩

/-- The block of an output cell lies in the frame (44_display.md R176). -/
theorem half_lt_of_lt_outW {p : Config.Params} (hratio : p.RatioOk) {x y : Nat} (hx : x < p.outW) (hy : y < p.outH) :
    x / 2 < p.fbW ∧ y / 2 < p.fbH := by
  obtain ⟨hw, hh⟩ := hratio
  omega

/-- Settles O55: every output cell is a pixel of the frame, so a uniform frame has a uniform output. -/
theorem filterInventsNoValue : Obligations.FilterInventsNoValue := by
  intro s hsafe hratio
  have hcell (x y : Nat) (hx : x < s.params.outW) (hy : y < s.params.outH) :
      ∃ px py, px < s.params.fbW ∧ py < s.params.fbH ∧ s.filterPass.outPixel x y = s.pixel px py := by
    obtain ⟨hx', hy'⟩ := half_lt_of_lt_outW hratio hx hy
    rw [s.outPixel_filterPass hsafe hx hy]
    exact s.filterCell_eq_pixel hx' hy'
  refine ⟨fun v huniform x y hx hy => ?_, hcell⟩
  obtain ⟨px, py, hpx, hpy, hpixel⟩ := hcell x y hx hy
  rw [hpixel, huniform px py hpx hpy]

/-! A single pixel. -/

/-- Each corner pairs a horizontal neighbour with a vertical one and takes their shared value, so the block is the
centre where both horizontal neighbours equal the centre, or both vertical ones. -/
theorem blockCell_eq_centre_of_line {n : Neighbours}
    (h : (n.left = n.centre ∧ n.right = n.centre) ∨ (n.top = n.centre ∧ n.bottom = n.centre)) (dx dy : Nat) :
    blockCell n dx dy = n.centre := by
  unfold blockCell cornerA cornerB cornerC cornerD
  split <;> split <;> rw [ite_eq_right_iff] <;> rintro ⟨hpair, -⟩ <;>
    rcases h with ⟨hleft, hright⟩ | ⟨htop, hbottom⟩
  · exact hleft
  · exact hpair.trans htop
  · exact hpair.trans hright
  · exact htop
  · exact hleft
  · exact hpair.trans hbottom
  · exact hright
  · exact hpair.trans hbottom

/-- Where the four neighbours agree no corner is overridden. -/
theorem blockCell_eq_centre_of_agree {n : Neighbours} {w : Byte} (htop : n.top = w) (hleft : n.left = w)
    (hright : n.right = w) (hbottom : n.bottom = w) (dx dy : Nat) : blockCell n dx dy = n.centre := by
  simp [blockCell, cornerA, cornerB, cornerC, cornerD, htop, hleft, hright, hbottom]

/-- The block of the single pixel: its four neighbours lie in the frame and agree. -/
theorem State.blockCell_of_single {s : State} {x y : Nat} {w : Byte} (hx : 0 < x) (hx' : x + 1 < s.params.fbW)
    (hy : 0 < y) (hy' : y + 1 < s.params.fbH)
    (hrest : ∀ px py, px < s.params.fbW → py < s.params.fbH → (px ≠ x ∨ py ≠ y) → s.pixel px py = w) (dx dy : Nat) :
    blockCell (s.neighbours x y) dx dy = s.pixel x y := by
  rw [s.neighbours_eq (by omega) (by omega)]
  refine blockCell_eq_centre_of_agree (w := w) ?_ ?_ ?_ ?_ dx dy <;> dsimp only
  · rw [if_neg (by omega)]; exact hrest _ _ (by omega) (by omega) (.inr (by omega))
  · rw [if_neg (by omega)]; exact hrest _ _ (by omega) (by omega) (.inl (by omega))
  · rw [if_neg (by omega)]; exact hrest _ _ (by omega) (by omega) (.inl (by omega))
  · rw [if_neg (by omega)]; exact hrest _ _ (by omega) (by omega) (.inr (by omega))

/-- Every other block: a row without the single pixel has equal horizontal neighbours, a column without it vertical
ones. -/
theorem State.blockCell_of_other {s : State} {x y px py : Nat} {w : Byte} (hpx : px < s.params.fbW)
    (hpy : py < s.params.fbH) (hne : px ≠ x ∨ py ≠ y)
    (hrest : ∀ qx qy, qx < s.params.fbW → qy < s.params.fbH → (qx ≠ x ∨ qy ≠ y) → s.pixel qx qy = w) (dx dy : Nat) :
    blockCell (s.neighbours px py) dx dy = s.pixel px py := by
  have hcentre := hrest px py hpx hpy hne
  rw [s.neighbours_eq hpx hpy]
  refine blockCell_eq_centre_of_line ?_ dx dy
  by_cases hrow : py = y
  · have hcol : px ≠ x := hne.resolve_right (not_not.2 hrow)
    right
    constructor <;> dsimp only <;> split
    · rfl
    · rw [hcentre]; exact hrest _ _ hpx (by omega) (.inl hcol)
    · rfl
    · rw [hcentre]; exact hrest _ _ hpx (by omega) (.inl hcol)
  · left
    constructor <;> dsimp only <;> split
    · rfl
    · rw [hcentre]; exact hrest _ _ (by omega) hpy (.inr hrow)
    · rfl
    · rw [hcentre]; exact hrest _ _ (by omega) hpy (.inr hrow)

/-- Settles O56: each block of the output is the value of its own pixel, filter on or off. -/
theorem filterKeepsASinglePixel : Obligations.FilterKeepsASinglePixel := by
  intro s x y v w hsafe hratio hx hx' hy hy' hv hrest cx cy hcx hcy
  obtain ⟨hpx, hpy⟩ := half_lt_of_lt_outW hratio hcx hcy
  have hcell : s.filterCell cx cy = s.pixel (cx / 2) (cy / 2) := by
    cases hf : s.filterOn with
    | false => exact State.filterCell_of_off hf cx cy
    | true =>
      rw [State.filterCell_of_on hf]
      by_cases hown : cx / 2 = x ∧ cy / 2 = y
      · rw [hown.1, hown.2]
        exact State.blockCell_of_single hx hx' hy hy' hrest _ _
      · exact State.blockCell_of_other hpx hpy (by omega) hrest _ _
  rw [s.outPixel_filterPass hsafe hcx hcy, hcell]
  split
  · next hown => rw [hown.1, hown.2, hv]
  · next hother => exact hrest _ _ hpx hpy (by omega)

end Sys2Proof.Machine
end

section
/-! PROOFS. Reset, construction, keys, the key wait, the tick, the reads (10_state.md section 9, 45_keyboard_timers.md,
44_display.md sections 2 and 3). -/

namespace Sys2Proof.Machine

/-! Reset and construction. -/

/-- Settles O1: the default reset fills the arrays with their fill values. -/
theorem resetLeavesTheListedValues : Obligations.ResetLeavesTheListedValues := by
  have hv (r : Nibble) : State.reset.getV r = 0x00#8 := Vector.getElem_replicate _
  have hk (k : Nibble) : State.reset.keyDown k = false := Vector.getElem_replicate _
  exact ⟨rfl, rfl, hv, rfl, fun _ => rfl, rfl, rfl, hk, rfl, rfl, rfl, fun _ _ => rfl, rfl, fun _ _ => rfl, rfl, rfl,
    rfl, fun _ => rfl⟩

/-- The model's check of the parameters, written out (00_scope.md R9). -/
theorem params_wellFormed_iff (p : Config.Params) : p.WellFormed ↔
    1 ≤ p.stackDepth ∧ (1 ≤ p.fbW ∧ p.fbW ≤ 256) ∧ (1 ≤ p.fbH ∧ p.fbH ≤ 256) ∧ p.outW = 2 * p.fbW ∧
      p.outH = 2 * p.fbH ∧ p.font.length = 80 := by
  simp only [Config.Params.WellFormed, Config.Params.StackOk, Config.Params.FrameOk, Config.Params.RatioOk,
    Config.Params.FontOk, and_assoc]

/-- Settles O2: construction asks the check and nothing else. -/
theorem constructionChecksTheParameters : Obligations.ConstructionChecksTheParameters := by
  intro p r
  rw [← params_wellFormed_iff]
  exact ⟨fun hp => if_pos hp, fun hp => if_neg hp⟩

/-! Keys. -/

/-- Settles O44: a value that names a key skips on that key, a larger one only faults. -/
theorem keySkips : Obligations.KeySkips := by
  intro x k s
  refine ⟨fun hk => ⟨?_, ?_⟩, fun hk => ⟨?_, ?_⟩⟩
  · refine exists_next_of_exec_eq_skipIf ?_ rfl
    rw [exec_skp, s.keySkip_of_eq _ _ hk]
  · refine exists_next_of_exec_eq_skipIf (c := !s.keyDown k) ?_ ?_
    · rw [exec_sknp, s.keySkip_of_eq _ _ hk]
    · cases s.keyDown k <;> rfl
  · rw [exec_skp, s.keySkip_of_gt _ _ hk]; rfl
  · rw [exec_sknp, s.keySkip_of_gt _ _ hk]; rfl

/-- `setKey` writes one key alone. -/
theorem State.frameOutside_setKey (s : State) (k : Nibble) (c : Bool) :
    FrameOutside (fun p => p = .key k) s (s.setKey k c) := by
  intro p hp
  cases p with
  | key q =>
    have hq : ¬ k = q := fun h => hp (congrArg Part.key h.symm)
    exact ((s.keyDown_setKey k c q).trans (if_neg hq)).symm
  | _ => rfl

/-- `latchKey` writes the captured key and its flag. -/
theorem State.frameOutside_latchKey (s : State) (k : Nibble) :
    FrameOutside (fun p => p = .received ∨ p = .latchedKey) s (s.latchKey k) := by
  unfold State.latchKey
  split
  · intro p hp
    cases p with
    | received => exact absurd (.inl rfl) hp
    | latchedKey => exact absurd (.inr rfl) hp
    | _ => rfl
  · exact fun p _ => by cases p <;> rfl

/-- Every nibble is a key id (45_keyboard_timers.md R199). -/
theorem not_gt_fifteen (k : Nibble) : ¬ 15 < k.toNat := Nat.not_lt.2 (Nat.le_of_lt_succ k.isLt)

/-- A press on a live block sets its key and offers it to a wait (45_keyboard_timers.md R196). -/
theorem State.pressKey_of_safe {s : State} (hsafe : s.fault = none) (k : Nibble) :
    s.pressKey k.toNat = .next ((s.setKey k true).latchKey k) := by
  rw [State.pressKey, if_neg (not_gt_fifteen k), s.unlessFaulted_of_safe _ hsafe, BitVec.ofNat_toNat, BitVec.setWidth_eq]

theorem State.releaseKey_of_safe {s : State} (hsafe : s.fault = none) (k : Nibble) :
    s.releaseKey k.toNat = .next (s.setKey k false) := by
  rw [State.releaseKey, if_neg (not_gt_fifteen k), s.unlessFaulted_of_safe _ hsafe, BitVec.ofNat_toNat, BitVec.setWidth_eq]

theorem State.latchKey_of_waiting {s : State} (hw : s.waiting = true) (k : Nibble) :
    s.latchKey k = { s with latchedKey := k, received := true } :=
  if_pos hw

theorem State.latchKey_of_not_waiting {s : State} (hw : s.waiting = false) (k : Nibble) : s.latchKey k = s :=
  if_neg (Bool.eq_false_iff.1 hw)

theorem State.keyDown_latchKey (s : State) (k q : Nibble) : (s.latchKey k).keyDown q = s.keyDown q := by
  unfold State.latchKey
  split <;> rfl

/-- Settles O48: a press sets the key and latches it while a wait is pending, a release clears the key. -/
theorem keyEvents : Obligations.KeyEvents := by
  intro k n s
  refine ⟨fun hsafe => ?_, fun hsafe => ?_, fun hn => ⟨if_pos hn, if_pos hn⟩⟩
  · refine ⟨_, State.pressKey_of_safe hsafe k, ?_, fun hw => ⟨?_, ?_, ?_⟩, fun hw => ?_⟩
    · rw [State.keyDown_latchKey, State.keyDown_setKey, if_pos rfl]
    · rw [State.latchKey_of_waiting (s := s.setKey k true) hw]
    · rw [State.latchKey_of_waiting (s := s.setKey k true) hw]
    · exact (s.frameOutside_setKey k true).trans ((s.setKey k true).frameOutside_latchKey k)
    · rw [State.latchKey_of_not_waiting (s := s.setKey k true) hw]
      exact s.frameOutside_setKey k true
  · refine ⟨_, State.releaseKey_of_safe hsafe k, ?_, s.frameOutside_setKey k false⟩
    rw [State.keyDown_setKey, if_pos rfl]

/-! The key wait. -/

/-- `startWait` writes the pending flag alone. -/
theorem State.frameOutside_startWait (s : State) : FrameOutside (fun p => p = .waiting) s s.startWait := by
  intro p hp
  cases p with
  | waiting => exact absurd rfl hp
  | _ => rfl

/-- `endWait` writes the two flags of the latch alone. -/
theorem State.frameOutside_endWait (s : State) :
    FrameOutside (fun p => p = .waiting ∨ p = .received) s s.endWait := by
  intro p hp
  cases p with
  | waiting => exact absurd (.inl rfl) hp
  | received => exact absurd (.inr rfl) hp
  | _ => rfl

/-- `settleLatch` writes nothing, or under the other reading the latched key and the counter (log entry 15). -/
theorem State.frameOutside_settleLatch (s : State) :
    FrameOutside (fun p => s.params.latch = .written ∧ (p = .latchedKey ∨ p = .draws)) s s.settleLatch := by
  cases hl : s.params.latch with
  | kept =>
    rw [s.settleLatch_of_kept hl]
    exact fun p _ => by cases p <;> rfl
  | written =>
    intro p hp
    cases p with
    | latchedKey => exact absurd ⟨rfl, .inl rfl⟩ hp
    | draws => exact absurd ⟨rfl, .inr rfl⟩ hp
    | _ => rfl

/-- A key id as a register value keeps its number (45_keyboard_timers.md R193). -/
theorem toNat_keyByte (k : Nibble) : (k.setWidth 8 : Byte).toNat = k.toNat :=
  BitVec.toNat_setWidth_of_le (by decide)

/-- Before a wait begins the captured key is read by nothing that outlives it: two states that differ in it alone begin
waits that differ in it alone. -/
theorem State.frameOutside_settleLatch_of_latchedKey (s : State) (k : Nibble) :
    FrameOutside (fun p => p = .latchedKey) s.settleLatch ({ s with latchedKey := k } : State).settleLatch := by
  intro p hp
  cases p with
  | latchedKey => exact absurd rfl hp
  | _ => rfl

/-- Settles O46: the three states of FX0A, and in the first two nothing but the latched key depends on its old value. -/
theorem keyWaitPolls : Obligations.KeyWaitPolls := by
  intro x s latch
  refine ⟨fun hw => ?_, fun hw hr => exec_ldVxK_wait x hw hr, fun hw hr => ?_, fun hr k => ?_⟩
  · exact ⟨_, exec_ldVxK_start x hw, rfl, s.frameOutside_startWait.trans s.startWait.frameOutside_settleLatch⟩
  · refine ⟨_, exec_ldVxK_end x hw hr, ?_, rfl, rfl, rfl, ?_⟩
    · rw [State.advance_getV, State.getV_setV_self, toNat_keyByte]
    · refine (s.frameOutside_endWait.trans (s.endWait.frameOutside_settleLatch.trans
        ((State.frameOutside_setV _ x _).trans (State.frameOutside_advance _)))).mono ?_
      rintro p ((h | h) | h | h | h)
      · exact .inr (.inl h)
      · exact .inr (.inr (.inl h))
      · exact .inr (.inr (.inr (.inr h)))
      · exact .inl h
      · exact .inr (.inr (.inr (.inl h)))
  · rcases Bool.eq_false_or_eq_true s.waiting with hw | hw
    · refine ⟨_, _, exec_ldVxK_wait x hw hr, exec_ldVxK_wait (s := { s with latchedKey := k }) x hw hr, fun p hp => ?_⟩
      cases p with
      | latchedKey => exact absurd rfl hp
      | _ => rfl
    · exact ⟨_, _, exec_ldVxK_start x hw, exec_ldVxK_start (s := { s with latchedKey := k }) x hw,
        s.startWait.frameOutside_settleLatch_of_latchedKey k⟩

/-- Settles O47: the press finds the wait pending and is latched, so the next execution ends the wait with that key. -/
theorem pressCompletesTheWait : Obligations.PressCompletesTheWait := by
  intro x k s hsafe hw hk
  have hkey : (BitVec.ofNat 4 k).toNat = k := (BitVec.toNat_ofNat k 4).trans (Nat.mod_eq_of_lt (Nat.lt_succ_of_le hk))
  have hpress := State.pressKey_of_safe (s := s.startWait.settleLatch) hsafe (BitVec.ofNat 4 k)
  rw [hkey, State.latchKey_of_waiting rfl] at hpress
  refine ⟨_, _, _, exec_ldVxK_start x hw, rfl, hpress, exec_ldVxK_end x rfl rfl, ?_, rfl, rfl, rfl⟩
  rw [State.advance_getV, State.getV_setV_self, toNat_keyByte]
  exact hkey

/-! The tick. -/

/-- A countdown is the natural predecessor (45_keyboard_timers.md R198). -/
theorem toNat_countDown (b : Byte) : (countDown b).toNat = b.toNat - 1 := by
  unfold countDown
  split
  · next hb => rw [hb]; rfl
  · next hb =>
    have hpos : b.toNat ≠ 0 := fun h => hb (BitVec.eq_of_toNat_eq h)
    have hlt := b.isLt
    rw [BitVec.toNat_sub, BitVec.toNat_ofNat]
    omega

theorem State.tick_of_safe {s : State} (h : s.fault = none) :
    s.tick = { s with dt := countDown s.dt, st := countDown s.st } :=
  s.unlessFaulted_of_safe _ h

/-- Settles O49: a tick is two countdowns. -/
theorem tickCountsDown : Obligations.TickCountsDown := by
  intro s hsafe
  rw [State.tick_of_safe hsafe]
  refine ⟨toNat_countDown s.dt, toNat_countDown s.st, fun p hp => ?_⟩
  cases p with
  | dt => exact absurd (.inl rfl) hp
  | st => exact absurd (.inr rfl) hp
  | _ => rfl

/-! The toggle and the reads. -/

theorem State.toggleFilter_of_safe {s : State} (h : s.fault = none) :
    s.toggleFilter = { s with filterOn := !s.filterOn } :=
  s.unlessFaulted_of_safe _ h

theorem inOut_iff (p : Config.Params) (x y : Nat) : inOut p x y = true ↔ x < p.outW ∧ y < p.outH := decide_eq_true_iff

/-- Settles O60: the toggle writes the filter alone; a read checks its buffer's bounds and answers the same state. -/
theorem toggleAndReads : Obligations.ToggleAndReads := by
  intro x y s
  refine ⟨fun hsafe => ⟨rfl, ?_, ?_⟩, fun hx hy => ⟨if_pos ((inFrame_iff _ x y).2 ⟨hx, hy⟩), rfl⟩,
    fun hout => if_neg ?_, fun hx hy => ⟨if_pos ((inOut_iff _ x y).2 ⟨hx, hy⟩), rfl⟩, fun hout => if_neg ?_⟩
  · rw [State.toggleFilter_of_safe hsafe]
  · rw [State.toggleFilter_of_safe hsafe]
    intro p hp
    cases p with
    | filterOn => exact absurd rfl hp
    | _ => rfl
  · rw [inFrame_iff]; omega
  · rw [inOut_iff]; omega

end Sys2Proof.Machine
end

section
/-! PROOFS. The block among its agents: the freeze after a fault, the load, the hand-off of a frame (60_exceptions.md
sections 1 and 4, 70_reset_and_hazards.md section 1). -/

namespace Sys2Proof.Machine

/-! A faulted block. -/

/-- No operation changes a faulted block (60_exceptions.md R214). -/
theorem HostOp.apply_of_fault {op : HostOp} {s t : State} (hfault : s.fault ≠ none) (h : op.apply s = .next t) :
    t = s := by
  rcases HostOp.apply_cases h with hstep | rfl
  · rw [step_of_fault hfault] at hstep
    cases hstep
    rfl
  · exact s.unlessFaulted_of_fault _ hfault

/-- Once the agents are stopped no turn does anything (60_exceptions.md R225). -/
theorem Session.turns_of_stopped {e : Session} (h : e.stopped = true) :
    (∀ ticks, e.executionTurn ticks = .next e) ∧ e.filterTurn = e ∧ e.presentTurn = (false, e) := by
  refine ⟨fun _ => if_pos h, if_pos ?_, if_pos h⟩
  rw [h, Bool.true_or]

/-- A step of a faulted block is still allowed and leaves the block (log entry 16). -/
theorem Session.perform_step_of_fault {e : Session} (h : e.block.fault ≠ none) :
    e.perform .step = .next (e.record .step e.block) := by
  have hlive : e.block.fault.isNone = false := by rwa [Option.isNone_eq_false_iff, Option.isSome_iff_ne_none]
  rw [Session.perform, hlive, Bool.and_false, HostOp.apply, step_of_fault h]
  rfl

/-- Settles O7: operations leave a faulted block alone, and the record of one that ends in a fault stops the agents. -/
theorem faultedBlockIsFrozen : Obligations.FaultedBlockIsFrozen := by
  refine ⟨fun op s t hfault h => HostOp.apply_of_fault hfault h, fun op e f h hfault => ?_⟩
  obtain ⟨-, -, t, -, rfl⟩ := Session.perform_next h
  have hsome : t.fault.isSome = true := by rwa [Session.record_block, ← Option.isSome_iff_ne_none] at hfault
  have hstop : (e.record op t).stopped = true := by rw [Session.record_stopped, hsome, Bool.or_true]
  have hwoken : (e.record op t).filterParked = false := by
    rw [Session.filterParked, Session.record_n1, hsome, Bool.or_true]; rfl
  obtain ⟨hexec, hfilter, hpresent⟩ := Session.turns_of_stopped hstop
  exact ⟨hstop, hwoken, hexec, hfilter, hpresent, _, Session.perform_step_of_fault hfault, Session.record_block _ _ _⟩

/-! The load. -/

theorem State.load_of_safe {s : State} (hsafe : s.fault = none) {bytes : List Byte} (hlen : bytes.length ≤ 3584) :
    s.load bytes = .next (s.placeProgram bytes) := by
  rw [State.load, if_neg (by rw [loadLimit_eq]; exact Nat.not_lt.2 hlen), s.unlessFaulted_of_safe _ hsafe]

/-- A load writes the memory of the font and of the program alone (70_reset_and_hazards.md R241). -/
theorem State.frameOutside_placeProgram (s : State) (hwf : Memory.wf s.mem) (hfont : s.params.FontOk)
    {bytes : List Byte} (hlen : bytes.length ≤ 3584) :
    FrameOutside (fun p => ∃ a, p = .byte a ∧ (a < 80 ∨ 0x200 ≤ a ∧ a < 0x200 + bytes.length)) s
      (s.placeProgram bytes) := by
  intro p hp
  cases p with
  | byte a =>
    have hout : ¬(a < 80 ∨ 0x200 ≤ a ∧ a < 0x200 + bytes.length) := fun h => hp ⟨a, rfl, h⟩
    obtain ⟨hnotFont, hnotProgram⟩ := not_or.1 hout
    exact ((s.readByte_placeProgram hwf hfont bytes hlen a).trans
      ((if_neg hnotProgram).trans (if_neg hnotFont))).symm
  | _ => rfl

/-- A load after a load or a step is refused, unless the shutdown refuses it before (60_exceptions.md R217, D34). -/
theorem Session.perform_load_of_late {e : Session} (hallowed : e.stopped = false ∨ e.block.fault ≠ none)
    (hlate : e.loaded = true ∨ e.started = true) (bytes : List Byte) :
    e.perform (.load bytes) = .refused .loadAfterStart := by
  have hopen : (e.stopped && e.block.fault.isNone) = false := by
    rcases hallowed with h | h
    · rw [h, Bool.false_and]
    · rw [Option.isNone_eq_false_iff.2 (Option.isSome_iff_ne_none.2 h), Bool.and_false]
  have hlate' : (e.loaded || e.started) = true := by rwa [Bool.or_eq_true]
  rw [Session.perform, hopen, hlate']
  rfl

/-- After an operation that was performed the next one is allowed. -/
theorem Session.allowed_of_perform {op : HostOp} {e f : Session} (h : e.perform op = .next f) :
    f.stopped = false ∨ f.block.fault ≠ none := by
  obtain ⟨hallowed, -, t, ht, rfl⟩ := Session.perform_next h
  rw [Session.record_stopped, Session.record_block]
  by_cases hfault : t.fault = none
  · rcases hallowed with hopen | hbefore
    · exact .inl (by rw [hopen, hfault]; rfl)
    · rw [HostOp.apply_of_fault hbefore ht] at hfault
      exact absurd hfault hbefore
  · exact .inr hfault

/-- Settles O57: a load places font and program or is refused; what it and a step leave in the session refuses every
later load. -/
theorem loadPlacesFontAndProgram : Obligations.LoadPlacesFontAndProgram := by
  intro s bytes
  refine ⟨fun hsafe hwf hfont hlen => ?_, fun hlong => if_pos hlong,
    fun e hopen hlate => Session.perform_load_of_late (.inl hopen) hlate bytes, fun e f op h => ⟨?_, ?_⟩⟩
  · have hread := s.readByte_placeProgram hwf hfont bytes hlen
    refine ⟨_, State.load_of_safe hsafe hlen, fun j hj => ?_, fun j hj => ?_,
      s.frameOutside_placeProgram hwf hfont hlen⟩
    · rw [hread, if_neg (by omega), if_pos hj]
    · rw [hread, if_pos (by omega), Nat.add_sub_cancel_left]
  · rintro rfl
    obtain ⟨-, -, t, -, rfl⟩ := Session.perform_next h
    rw [Session.record_started]
    exact Bool.or_true _
  · rintro rfl
    have hallowed := Session.allowed_of_perform h
    obtain ⟨-, -, t, -, rfl⟩ := Session.perform_next h
    have hloaded : (e.record (.load bytes) t).loaded = true := by rw [Session.record_loaded]; exact Bool.or_true _
    exact ⟨hloaded, fun again => Session.perform_load_of_late hallowed (.inl hloaded) again⟩

/-! The hand-off. -/

/-- A step that leaves the block live is only remembered. -/
theorem Session.perform_step_of_safe {e : Session} {t : State} (hopen : e.stopped = false)
    (ht : step e.block = .next t) (hsafe : t.fault = none) :
    e.perform .step = .next { e with block := t, started := true } := by
  have hperform : e.perform .step = .next (e.record .step t) := by
    rw [Session.perform, hopen, Bool.false_and, HostOp.apply, ht]
    rfl
  rw [hperform, Session.record, Session.stopOnFault_of_safe (by exact hsafe), HostOp.isLoad, HostOp.isStep,
    Bool.or_false, Bool.or_true]

/-- A turn that does not fault is a step, the tick that may follow it, and the hand-off (60_exceptions.md R223). -/
theorem Session.executionTurn_of_safe {e : Session} {t : State} (hopen : e.stopped = false)
    (ht : step e.block = .next t) (hsafe : t.fault = none) (ticks : Bool) : e.executionTurn ticks =
      .next (Session.notifyFilter { e with block := if ticks then t.tick else t, started := true }) := by
  refine (if_neg (Bool.eq_false_iff.1 hopen)).trans ?_
  rw [Session.perform_step_of_safe hopen ht hsafe]
  cases ticks <;> rfl

/-- A tick leaves the fault record and the frame buffer's flag. -/
theorem State.tick_kept (s : State) : s.tick.fault = s.fault ∧ s.tick.fbDirty = s.fbDirty :=
  State.unlessFaulted_keeps (P := fun t => t.fault = s.fault ∧ t.fbDirty = s.fbDirty) ⟨rfl, rfl⟩ ⟨rfl, rfl⟩

/-- A filter turn without a notification waits (60_exceptions.md R224). -/
theorem Session.filterTurn_of_parked {e : Session} (hn : e.n1 = false) : e.filterTurn = e := by
  refine if_pos ?_
  rw [Session.filterParked, hn]
  exact Bool.or_true _

/-- A filter turn with a notification runs a pass and hands it on (60_exceptions.md R224). -/
theorem Session.filterTurn_of_notified {e : Session} (hopen : e.stopped = false) (hn : e.n1 = true) : e.filterTurn =
    { e with block := e.block.filterPass.outConsumeDirty, n1 := false, n2 := e.n2 || e.block.filterPass.outDirty } := by
  refine if_neg ?_
  rw [Session.filterParked, hn, hopen]
  decide

/-- The presentation's poll of a running session (60_exceptions.md R224). -/
theorem Session.presentTurn_of_open {e : Session} (hopen : e.stopped = false) :
    e.presentTurn = (e.n2, { e with n2 := false }) :=
  if_neg (Bool.eq_false_iff.1 hopen)

/-- Settles O59: each agent's turn in a running session, read off from what it hands on. -/
theorem handOffReachesThePresentation : Obligations.HandOffReachesThePresentation := by
  intro e hopen hsafe
  refine ⟨fun ticks t ht htsafe => ?_, Session.filterTurn_of_parked, fun hn => ?_,
    Session.presentTurn_of_open hopen, ?_⟩
  · obtain ⟨hfault, hdirty⟩ : (if ticks then t.tick else t).fault = none ∧
        (if ticks then t.tick else t).fbDirty = t.fbDirty := by
      cases ticks with
      | false => exact ⟨htsafe, rfl⟩
      | true => exact t.tick_kept.imp_left (·.trans htsafe)
    refine ⟨_, Session.executionTurn_of_safe hopen ht htsafe ticks, ?_, State.fbConsumeDirty_of_safe hfault, rfl, hopen,
      rfl⟩
    exact congrArg (e.n1 || ·) hdirty
  · have hpass : e.block.filterPass.fault = none := by rw [State.filterPass_of_safe hsafe]; exact hsafe
    rw [Session.filterTurn_of_notified hopen hn]
    refine ⟨rfl, ?_, ?_⟩
    · rw [State.outDirty_filterPass hsafe]; exact Bool.or_true _
    · rw [State.outConsumeDirty_of_safe hpass, State.filterPass_of_safe hsafe]
  · rw [Session.presentTurn_of_open hopen]
    exact Session.presentTurn_of_open (e := { e with n2 := false }) hopen

end Sys2Proof.Machine
end
